-- ==== Sys2Proof/Word.lean ====
section
/-! DEFINITION. The words of the forecourt ring and the counts of the part's time base (chapter 12 of the spec). -/

namespace Sys2Proof

/-- A 16-bit ring word (section 12.10). -/
abbrev Word := BitVec 16

/-- A node address on the ring, the strap address included (R186). -/
abbrev NodeAddr := BitVec 8

/-- A count of the 32-bit millisecond counter (R197); every timer and deadline is one. -/
abbrev Count := BitVec 32

end Sys2Proof
end

