-- ==== Sys2Proof/Syntax.lean ====
section
/-! DEFINITION. The commands of the block: one constructor of `Instr` for each row of spec/opcode_table.json. -/

namespace Sys2Proof

/-- The addressing part of an arriving frame: destination, source and tag (section 12.10, words 0 and 1). -/
structure Header where
  dst : NodeAddr
  src : NodeAddr
  tag : BitVec 8
  deriving DecidableEq, Repr

/-- A good frame as it stands on the ring; its length word is the length of the payload. -/
structure Frame where
  hdr     : Header
  kind    : BitVec 8
  payload : List Word
  deriving DecidableEq, Repr

/-- Node, meter and data status of a frame: OK 0, FAULT 1 (section 12.10). -/
inductive Status where
  | ok
  | fault
  deriving DecidableEq, Repr

/-- One reading of a SAMPLE frame (section 1.3). -/
structure Reading where
  channel : Word
  status  : Status
  value   : Word
  deriving DecidableEq, Repr

/-- The commands of the block.  Every frame row carries the frame's header and its payload fields in the
layout of section 12.10; a timer row names the point, position or compressor whose timer expires. -/
inductive Instr where
  /-- SAMPLE (R5). -/
  | sample (h : Header) (readings : List Reading)
  /-- TOTAL (R169). -/
  | total (h : Header) (totaliser : Word) (status : Status)
  /-- LINK (R118). -/
  | link (h : Header) (pressure temperature : Word) (status : Status) (command : Word)
  /-- COMMAND from another node (R32). -/
  | command (h : Header) (channel value : Word)
  /-- PAY AUTHORIZE (R172 to R174). -/
  | authorize (h : Header) (position : Word) (reference : BitVec 32) (card contract preset : Word) (value : BitVec 32)
  /-- PAY CANCEL (R175). -/
  | cancel (h : Header) (position : Word) (reference : BitVec 32)
  /-- A PAY frame whose request is neither 1 nor 2 (R172). -/
  | unknownPayRequest (h : Header) (request position : Word) (reference : BitVec 32)
  /-- BEACON (R198). -/
  | beacon (h : Header) (day minute milli : Word)
  /-- A good frame of a kind the part does not take (R187). -/
  | forwardedFrame (f : Frame)
  /-- The words of a bad frame (R187). -/
  | badFrame (words : List Word)
  /-- One of the part's own frames returning round the loop (R187). -/
  | ownFrameStripped (f : Frame)
  /-- An MREQ whose code is not 1 to 34, or whose payload length is wrong; a payload of no words has neither a code nor a
  content (R191). -/
  | unknownMreq (h : Header) (code : Option Word) (content : List Word)
  /-- STATUS_READ, request 1 (R193). -/
  | statusRead (h : Header)
  /-- POSITION_READ, request 2 (R101). -/
  | positionRead (h : Header) (position : Word)
  /-- BANK_READ, request 3 (R137). -/
  | bankRead (h : Header) (bank : Word)
  /-- COMPRESSOR_READ, request 4 (R151). -/
  | compressorRead (h : Header) (compressor : Word)
  /-- COOLING_READ, request 5 (R166). -/
  | coolingRead (h : Header)
  /-- TABLE_QUERY, request 6 (R57). -/
  | tableQuery (h : Header) (kind : Word)
  /-- TABLE_CLEAR, request 7 (R56). -/
  | tableClear (h : Header) (kind slot : Word)
  /-- TABLE_WRITE, request 8 (R55). -/
  | tableWrite (h : Header) (kind slot segment : Word) (content : List Word)
  /-- TABLE_ACTIVATE, request 9 (R58). -/
  | tableActivate (h : Header) (kind slot : Word)
  /-- CONTRACT_WRITE, request 10 (R182). -/
  | contractWrite (h : Header) (id state tier mask : Word) (quota : BitVec 32)
  /-- CONTRACT_READ, request 11 (R182). -/
  | contractRead (h : Header) (id : Word)
  /-- CONTRACT_DELETE, request 12 (R182). -/
  | contractDelete (h : Header) (id : Word)
  /-- POINT_READ, request 13 (R18, R31). -/
  | pointRead (h : Header) (point : Word)
  /-- POINT_MANUAL, request 14 (R26). -/
  | pointManual (h : Header) (point value : Word)
  /-- REACTION_WRITE, request 15 (R109). -/
  | reactionWrite (h : Header) (condition stateClass reaction : Word)
  /-- REACTION_READ, request 16 (R109). -/
  | reactionRead (h : Header) (condition : Word)
  /-- LOG_PEEK, request 17 (R181). -/
  | logPeek (h : Header)
  /-- LOG_READ, request 18 (R181). -/
  | logRead (h : Header) (number : BitVec 32)
  /-- LOG_RELEASE, request 19 (R181). -/
  | logRelease (h : Header) (number : BitVec 32)
  /-- EVENT_TAKE, request 20 (R196). -/
  | eventTake (h : Header)
  /-- EVENT_CLEAR, request 21 (R196). -/
  | eventClear (h : Header) (mask : Word)
  /-- EVENT_ENABLE, request 22 (R195). -/
  | eventEnable (h : Header) (mask : Word)
  /-- POSITION_STOP, request 23 (R99). -/
  | positionStop (h : Header) (position : Word)
  /-- POSITION_DISABLE, request 24 (R98). -/
  | positionDisable (h : Header) (position : Word)
  /-- POSITION_ENABLE, request 25 (R98). -/
  | positionEnable (h : Header) (position : Word)
  /-- POSITION_RESET, request 26 (R100). -/
  | positionReset (h : Header) (position : Word)
  /-- COMPRESSOR_RESET, request 27 (R151). -/
  | compressorReset (h : Header) (compressor : Word)
  /-- COMPRESSOR_DISABLE, request 28 (R151). -/
  | compressorDisable (h : Header) (compressor : Word)
  /-- COMPRESSOR_ENABLE, request 29 (R151). -/
  | compressorEnable (h : Header) (compressor : Word)
  /-- BANK_DISABLE, request 30 (R136). -/
  | bankDisable (h : Header) (bank : Word)
  /-- BANK_ENABLE, request 31 (R136). -/
  | bankEnable (h : Header) (bank : Word)
  /-- TRIP_SET, request 32 (R35). -/
  | tripSet (h : Header)
  /-- TRIP_RESET, request 33 (R36). -/
  | tripReset (h : Header)
  /-- RESTART, request 34 (R199). -/
  | restart (h : Header)
  /-- Expiry of a sensor point's freshness deadline (R8). -/
  | pointDeadlineExpiry (point : Fin 192)
  /-- Expiry of an actuator point's refresh deadline (R28). -/
  | refreshDeadlineExpiry (point : Fin 192)
  /-- Expiry of a SETTLING actuator point's discrepancy deadline (R30). -/
  | discrepancyDeadlineExpiry (point : Fin 192)
  /-- Expiry of the 20 ms trip settle timer (R37). -/
  | tripSettleExpiry
  /-- Expiry of a position's couple timer (R76). -/
  | coupleTimerExpiry (position : Fin 6)
  /-- Expiry of a position's hold-limit timer (R81, R92). -/
  | holdLimitExpiry (position : Fin 6)
  /-- Expiry of the pulse timer in the open phase (R82). -/
  | pulseOpenEnd (position : Fin 6)
  /-- Expiry of the pulse timer in the settle phase (R83). -/
  | pulseSettleEnd (position : Fin 6)
  /-- Expiry of the vent timer (R94). -/
  | ventTimerExpiry (position : Fin 6)
  /-- Expiry of the link timer (R120). -/
  | linkTimerExpiry (position : Fin 6)
  /-- Expiry of a meter intake deadline (R171). -/
  | meterDeadlineExpiry (position : Fin 6)
  /-- Expiry of a compressor's start timer (R143). -/
  | startTimerExpiry (compressor : Fin 2)
  /-- Expiry of an UNLOADED compressor's run timer (R146). -/
  | runTimerExpiry (compressor : Fin 2)
  /-- Expiry of a compressor's lockout timer (R147). -/
  | lockoutExpiry (compressor : Fin 2)
  /-- Expiry of an outlet monitor's settle timer (R163). -/
  | categorySettleExpiry (position : Fin 6)
  /-- Expiry of an outlet monitor's grace timer (R164). -/
  | graceTimerExpiry (position : Fin 6)
  /-- The counter reaches the minute mark plus 60,000 (R197). -/
  | minuteAdvance
  /-- The frame at ring-out finishes transmission (R189). -/
  | transmitComplete
  /-- Another party pulls the station trip line low (R33). -/
  | tripLineLow
  /-- The supply rises: the strap address read and whether the retention store kept its content (R200). -/
  | powerUp (straps : NodeAddr) (retained : Bool)
  /-- The reset input is released: the part starts as at power-up (R186, R200). -/
  | resetInput (straps : NodeAddr) (retained : Bool)
  /-- No other party pulls the station trip line any more (R36). -/
  | tripLineHigh
  deriving DecidableEq, Repr

end Sys2Proof
end

