-- ==== Sys2Proof/Decode.lean ====
section
/-! DEFINITION. Commands spelled by words: none.  The rows of spec/opcode_table.json give no bits (their "fields" are
empty), since the part takes frames, pins and timer expiries and no instruction words. -/

namespace Sys2Proof

/-- The command a word spells by the table's bits: none, for every row is without bits. -/
def decodeTableWord (_nbits _w : Nat) : Option Instr := none

end Sys2Proof
end

