-- ==== Sys2Proof/Config.lean ====
section
/-! DEFINITION. The fixed sizes and times of the part, and the one value that the spec leaves free. -/

namespace Sys2Proof.Config

/-- Entries of the point table (section 1.1). -/
def pointCount : Nat := 192

/-- Places of the forwarding buffer (R188). -/
def forwardingPlaces : Nat := 4

/-- Places of the response queue (R192). -/
def responsePlaces : Nat := 8

/-- Places of the notice queue (R195). -/
def noticePlaces : Nat := 16

/-- Trip settle time, ms (R36). -/
def tripSettle : Nat := 20

/-- Largest difference of a proportional point's feedback that matches (R29). -/
def matchBand : Int := 50

/-- Sale records of the transaction log (R176). -/
def logRecords : Nat := 128

/-- FREE count at which LOG_NEAR_FULL is set (R174, R185). -/
def nearFull : Nat := 8

/-- Contracts of the contract table (R182). -/
def contractPlaces : Nat := 64

/-- Largest daily quota, g (R182). -/
def quotaMax : Nat := 2000000

/-- Largest gross mass, g (R170). -/
def grossMax : Nat := 16777215

/-- Largest amount, minor units (R178). -/
def amountMax : Nat := 99999999

/-- Largest sale number (R172). -/
def saleNumberMax : Nat := 4294967295

/-- Band falling hysteresis, 0.1 °C (R154). -/
def bandHysteresis : Int := 10

/-- The request code in the MRESP to an MREQ that carries no request code, by its source and tag: a free value (R191;
DESIGN CHOICE, notes/assumptions/34.md). -/
opaque absentCode : NodeAddr → BitVec 8 → Word

/-- How many hand-overs are taken in one event (DESIGN CHOICE, notes/assumptions/5.md: far above what any event of the
part can cause). -/
def handOverFuel : Nat := 4096

end Sys2Proof.Config
end

