-- ==== Sys2Proof/Machine/Lane.lean ====
section
/-! DEFINITION. Containers of six (positions, banks) and of two (compressors), with one read and one write each. -/

namespace Sys2Proof.Machine

/-- A dispensing position P0 to P5. -/
abbrev Pos := Fin 6

/-- A storage bank B0 to B5. -/
abbrev Bank := Fin 6

/-- A compressor C0 or C1. -/
abbrev Comp := Fin 2

/-- One value for each of the six positions or banks. -/
structure Six (α : Type) where
  l0 : α
  l1 : α
  l2 : α
  l3 : α
  l4 : α
  l5 : α
  deriving DecidableEq, Repr

/-- One value for each of the two compressors. -/
structure Two (α : Type) where
  c0 : α
  c1 : α
  deriving DecidableEq, Repr

variable {α β : Type}

/-- The same value in all six lanes. -/
def Six.all (a : α) : Six α := ⟨a, a, a, a, a, a⟩

/-- The value of lane `i`. -/
def Six.get (x : Six α) (i : Fin 6) : α :=
  match i.val with
  | 0 => x.l0
  | 1 => x.l1
  | 2 => x.l2
  | 3 => x.l3
  | 4 => x.l4
  | _ => x.l5

/-- Lane `i` replaced. -/
def Six.set (x : Six α) (i : Fin 6) (a : α) : Six α :=
  match i.val with
  | 0 => { x with l0 := a }
  | 1 => { x with l1 := a }
  | 2 => { x with l2 := a }
  | 3 => { x with l3 := a }
  | 4 => { x with l4 := a }
  | _ => { x with l5 := a }

/-- Lane `i` changed by `f`. -/
def Six.modify (x : Six α) (i : Fin 6) (f : α → α) : Six α := x.set i (f (x.get i))

/-- Every lane changed by `f`. -/
def Six.map (f : α → β) (x : Six α) : Six β := ⟨f x.l0, f x.l1, f x.l2, f x.l3, f x.l4, f x.l5⟩

/-- The six lanes in order. -/
def Six.toList (x : Six α) : List α := [x.l0, x.l1, x.l2, x.l3, x.l4, x.l5]

/-- The six indices in order. -/
def sixIndices : List (Fin 6) := [0, 1, 2, 3, 4, 5]

/-- The same value for both compressors. -/
def Two.all (a : α) : Two α := ⟨a, a⟩

/-- The value of compressor `c`. -/
def Two.get (x : Two α) (c : Fin 2) : α :=
  match c.val with
  | 0 => x.c0
  | _ => x.c1

/-- The value of compressor `c` replaced. -/
def Two.set (x : Two α) (c : Fin 2) (a : α) : Two α :=
  match c.val with
  | 0 => { x with c0 := a }
  | _ => { x with c1 := a }

/-- The value of compressor `c` changed by `f`. -/
def Two.modify (x : Two α) (c : Fin 2) (f : α → α) : Two α := x.set c (f (x.get c))

/-- Both values changed by `f`. -/
def Two.map (f : α → β) (x : Two α) : Two β := ⟨f x.c0, f x.c1⟩

/-- The two indices in order. -/
def twoIndices : List (Fin 2) := [0, 1]

end Sys2Proof.Machine
end

