-- ==== Sys2Proof/Machine/State.lean ====
section
/-! DEFINITION. The state of the Rawsel HF6 as plain data, block by block (section 0.4), its stop reasons, and the
state right after reset. -/

namespace Sys2Proof.Machine

/-! ## Values, quality and the names the chapters fix -/

/-- Quality of a value (section 0.5.3), best first. -/
inductive Quality where
  | good
  | degraded
  | invalid
  deriving DecidableEq, Repr

/-- A measured or computed value with its quality and CLAMPED mark (section 0.5.3). -/
structure Value where
  num     : Int
  quality : Quality
  clamped : Bool
  deriving DecidableEq, Repr

/-- Dispenser class (section 0.2). -/
inductive DispClass where
  | h70
  | h35
  deriving DecidableEq, Repr

/-- Precool category, coldest first (section 0.6). -/
inductive Category where
  | t40
  | t30
  | t20
  deriving DecidableEq, Repr

/-- The four table kinds (section 4.1). -/
inductive TableKind where
  | gas
  | protocol
  | tariff
  | site
  deriving DecidableEq, Repr

/-- The two slots of one table kind (R54). -/
inductive SlotId where
  | a
  | b
  deriving DecidableEq, Repr

/-- Position states (section 5.1). -/
inductive PosState where
  | idle
  | authorized
  | admitting
  | pulse
  | ramp
  | switch
  | hold
  | vent
  | done
  | halted
  | outOfService
  deriving DecidableEq, Repr

/-- The 13 conditions, in code order (section 6.1). -/
inductive Condition where
  | overpressure
  | sensorStale
  | sensorDisagree
  | outOfCategory
  | limitWatch
  | leak
  | conformanceLoss
  | tankHot
  | meterFault
  | meterWhileClosed
  | valveDiscrepancy
  | uncoupled
  | ventTimeout
  deriving DecidableEq, Repr

/-- The five reactions, mildest first (R107). -/
inductive Reaction where
  | note
  | hold
  | finish
  | halt
  | trip
  deriving DecidableEq, Repr

/-- The four state classes (R107). -/
inductive StateClass where
  | idle
  | preflow
  | flowing
  | postflow
  deriving DecidableEq, Repr

/-- End reasons (R93, section 12.10). -/
inductive EndReason where
  | full
  | preset
  | initialPressure
  | noPressure
  | supplyExhausted
  | holdExpired
  | vehicleAbort
  | linkLostEnd
  | stopRequest
  | condition
  | halt
  | trip
  | reset
  | restart
  | powerLoss
  | expired
  | cancelled
  | noSupply
  deriving DecidableEq, Repr

/-- Outcomes of a limit test or of the outlet test before and after its first evaluation (R105, R163). -/
inductive LimitOutcome where
  | none
  | within
  | beyond
  | substituted
  deriving DecidableEq, Repr

/-! ## Point unit (chapters 1 and 2) -/

/-- Freshness of a live record or a meter intake record (R3, R169). -/
inductive Freshness where
  | never
  | fresh
  | stale
  deriving DecidableEq, Repr

/-- Watch state (R3). -/
inductive WatchState where
  | armed
  | disarmed
  deriving DecidableEq, Repr

/-- Live record of a sensor point (R3). -/
structure LiveRecord where
  value     : Int
  quality   : Quality
  clamped   : Bool
  freshness : Freshness
  deadline  : Option Count
  watch     : Option WatchState
  deriving DecidableEq, Repr

/-- Owner of an actuator point (R23), highest first. -/
inductive Owner where
  | safe
  | auto
  | manual
  deriving DecidableEq, Repr

/-- Match state of an actuator point (R22). -/
inductive MatchState where
  | matched
  | settling
  | discrepant
  deriving DecidableEq, Repr

/-- Actuator record (R22). -/
structure ActRecord where
  auto        : Int
  manual      : Int
  claimed     : Bool
  owner       : Owner
  effective   : Int
  refresh     : Count
  matching    : MatchState
  discrepancy : Option Count
  deriving DecidableEq, Repr

/-- What the point unit keeps for one entry of the point table: nothing, a live record or an actuator record. -/
inductive PointRecord where
  | empty
  | sensor (r : LiveRecord)
  | actuator (r : ActRecord)
  deriving DecidableEq, Repr

/-- Pair state (R12). -/
inductive PairState where
  | agree
  | disagree
  | single
  | neither
  deriving DecidableEq, Repr

/-- The outlet pressure pair of a position: its state and the combined outlet pressure (R11, R12). -/
structure Pair where
  state    : PairState
  combined : Value
  deriving DecidableEq, Repr

/-- Trip state (section 2.7). -/
inductive TripState where
  | clear
  | latched
  | settling
  deriving DecidableEq, Repr

/-- Trip cause (R33). -/
inductive TripCause where
  | line
  | detector (point : Nat)
  | reaction (position : Pos) (condition : Condition)
  | request
  deriving DecidableEq, Repr

/-- State of the point unit.  `linePulled` is the pin: some other party pulls the trip line low. -/
structure PointUnit where
  records    : List PointRecord
  pairs      : Six Pair
  trip       : TripState
  cause      : Option TripCause
  settle     : Option Count
  linePulled : Bool
  deriving DecidableEq, Repr

/-! ## Table store (chapter 4) -/

/-- Role of a slot (R54). -/
inductive Role where
  | active
  | standby
  deriving DecidableEq, Repr

/-- One slot of a table kind (R54).  A segment is `none` while its bitmap mark is clear (its words then read
as 0) and `some` of its words once written: content, bitmap and content status in one. -/
structure Slot where
  role       : Role
  segments   : List (Option (List Word))
  generation : Option (BitVec 16)
  binds      : Nat
  refs       : Option (Nat × Nat)
  deriving DecidableEq, Repr

/-- Both slots of a kind and its last issued generation (R54). -/
structure KindStore where
  slotA   : Slot
  slotB   : Slot
  lastGen : BitVec 16
  deriving DecidableEq, Repr

/-- The table store. -/
structure TableStore where
  gas      : KindStore
  protocol : KindStore
  tariff   : KindStore
  site     : KindStore
  deriving DecidableEq, Repr

/-- The validation checks reported by name (R62 to R64, R69 to R72). -/
inductive CheckName where
  | range
  | gridZero
  | gridPressure
  | gridTemperature
  | start
  | startOrder
  | nominal
  | pressureOrder
  | bandOrder
  | categoryOrder
  | duplicatePoint
  | pointForm
  | feedback
  | requiredPoint
  | drawPorts
  | bankThresholds
  | sequence
  | supervisor
  deriving DecidableEq, Repr

/-! ## Position sequencers (chapters 5 to 7) -/

/-- Resume state (R73). -/
inductive Resume where
  | pulse
  | ramp
  deriving DecidableEq, Repr

/-- The hold causes of a fill as a set (R73, R91). -/
structure HoldCauses where
  vehicle   : Bool
  bank      : Bool
  cooling   : Bool
  condition : Bool
  deriving DecidableEq, Repr

/-- A set of level conditions (R103). -/
structure LevelSet where
  overpressure   : Bool
  sensorStale    : Bool
  sensorDisagree : Bool
  outOfCategory  : Bool
  deriving DecidableEq, Repr

/-- Last target and band (R47, R48). -/
structure Target where
  target : Value
  upper  : Int
  lower  : Int
  deriving DecidableEq, Repr

/-- An outcome of the in-band test (R87). -/
inductive Conformance where
  | inBand
  | outOfBand
  deriving DecidableEq, Repr

/-- Result of a valve step (R50, R51): the new opening, and whether the step was clipped, the opening saturated, or the
opening held on an INVALID pressure. -/
structure ValveStep where
  opening   : Nat
  clipped   : Bool
  saturated : Bool
  held      : Bool
  deriving DecidableEq, Repr

/-- Link mode (R117). -/
inductive LinkMode where
  | pending
  | communicated
  | nonCommunicated
  deriving DecidableEq, Repr

/-- Cause of a non-communicated mode (R117). -/
inductive LinkCause where
  | never
  | timeout
  | fault
  | disagree
  deriving DecidableEq, Repr

/-- Vehicle command (section 7.1). -/
inductive VehicleCommand where
  | run
  | halt
  | abort
  deriving DecidableEq, Repr

/-- Link state of a fill (R117). -/
structure LinkState where
  mode      : LinkMode
  cause     : Option LinkCause
  pressure  : Option Value
  temp      : Option Value
  lastPress : Option Int
  lastTemp  : Option Int
  soc       : Option Value
  command   : VehicleCommand
  timer     : Option Count
  deriving DecidableEq, Repr

/-- Phase of the pulse (R82, R83). -/
inductive PulsePhase where
  | opening
  | settling
  deriving DecidableEq, Repr

/-- Fill context of a position (R73, R103, R105).  The class follows from the ACTIVE SITE slot and is not stored.
A running timer is the count at which it expires.  `evaluation` is the evaluation record R50 speaks of: the last valve step
of the fill (DESIGN CHOICE, notes/assumptions/35.md). -/
structure Seq where
  state      : PosState
  sale       : Option Nat
  threshold  : Option Nat
  band       : Option (Fin 6)
  category   : Option Category
  resume     : Option Resume
  causes     : HoldCauses
  rampBase   : Option Value
  rampMark   : Count
  target     : Option Target
  opening    : Nat
  evaluation : Option ValveStep
  window     : List Conformance
  settleP    : Option Value
  initialP   : Option Value
  endReason  : Option EndReason
  endCond    : Option Condition
  link       : Option LinkState
  couple     : Option Count
  holdLimit  : Option Count
  pulse      : Option Count
  phase      : PulsePhase
  ventTimer  : Option Count
  lastP      : Option Value
  lastValidP : Option Value
  active     : LevelSet
  holdSet    : LevelSet
  raised     : LevelSet
  overTest   : LimitOutcome
  deriving DecidableEq, Repr

/-! ## Bank selector (chapter 8) -/

/-- Bank state (R126). -/
inductive BankState where
  | available
  | unknown
  | disabled
  deriving DecidableEq, Repr

/-- Live part of a bank record (R126). -/
structure BankLive where
  state     : BankState
  pressure  : Value
  drawers   : Six Bool
  queue     : List Pos
  discharge : Option Comp
  deriving DecidableEq, Repr

/-- Draw record of a position (R127). -/
structure Draw where
  claim : Option Bank
  wait  : Option Bank
  index : Option Nat
  deriving DecidableEq, Repr

/-! ## Compression scheduler (chapter 9) -/

/-- Bank tier, in queue order (R139). -/
inductive Tier where
  | high
  | mid
  | low
  deriving DecidableEq, Repr

/-- Entry of the replenishment queue (R139). -/
structure QueueEntry where
  bank     : Bank
  tier     : Tier
  stamp    : Nat
  critical : Bool
  deriving DecidableEq, Repr

/-- Compressor states (R142). -/
inductive CompState where
  | stopped
  | coolWait
  | starting
  | running
  | switching
  | unloaded
  | lockout
  | faulted
  | disabled
  deriving DecidableEq, Repr

/-- Stop reasons (R147). -/
inductive StopReason where
  | runComplete
  | trip
  | coolingReclaimed
  | fault
  | disabled
  | restart
  deriving DecidableEq, Repr

/-- Fault causes (R148). -/
inductive FaultCause where
  | dischargeHot
  | dischargeStale
  | runLost
  | startTimeout
  | valveDiscrepancy
  deriving DecidableEq, Repr

/-- Live record of a compressor (R142).  `oldTarget` is the bank whose valve is still closing in SWITCHING (R145);
what cooling it holds stands in the allocator's table and queue.  `asked` is the bank at the head of the queue when a
compressor in COOL_WAIT last stated its request, from which a change of the head is known (R142); it says nothing in any
other state. -/
structure CompRecord where
  state     : CompState
  target    : Option Bank
  oldTarget : Option Bank
  runMark   : Count
  timer     : Option Count
  lastStop  : Option StopReason
  lastFault : Option FaultCause
  asked     : Option Bank
  deriving DecidableEq, Repr

/-- The scheduler's copy of a bank's pressure and state (R140, R152). -/
structure BankCopy where
  pressure : Value
  state    : BankState
  deriving DecidableEq, Repr

/-- State of the compression scheduler. -/
structure Scheduler where
  queue    : List QueueEntry
  arrivals : Nat
  comps    : Two CompRecord
  copies   : Six BankCopy
  deriving DecidableEq, Repr

/-! ## Cooling allocator (chapter 10) -/

/-- A holder of cooling (R155). -/
inductive Holder where
  | position (p : Pos)
  | compressor (c : Comp)
  deriving DecidableEq, Repr

/-- The position part of an allocation (R155). -/
structure PosAlloc where
  cls        : DispClass
  band       : Fin 6
  category   : Category
  downgrades : Nat
  deriving DecidableEq, Repr

/-- Entry of the allocation table (R155). -/
structure Alloc where
  holder   : Holder
  amount   : Nat
  stamp    : Nat
  fill     : Option PosAlloc
  critical : Bool
  deriving DecidableEq, Repr

/-- A request of the cooling wait queue (R156).  `fill` is present for a fill already begun and carries its
admission band, present category and downgrade count. -/
inductive CoolRequest where
  | position (p : Pos) (cls : DispClass) (fill : Option PosAlloc)
  | compressor (c : Comp) (demand : Nat) (critical : Bool)
  deriving DecidableEq, Repr

/-- Outlet monitor of a position (R163). -/
structure Monitor where
  settle : Option Count
  grace  : Option Count
  last   : LimitOutcome
  level  : Bool
  deriving DecidableEq, Repr

/-- State of the cooling allocator.  `fromScan` says whether the setpoint last written came from the scan (R166). -/
structure Cooling where
  band     : Fin 6
  capacity : Nat
  table    : List Alloc
  stamps   : Nat
  queue    : List CoolRequest
  monitors : Six Monitor
  fromScan : Bool
  deriving DecidableEq, Repr

/-! ## Sales unit (chapter 11) -/

/-- Card kind (section 11.3). -/
inductive CardKind where
  | retail
  | fleet
  deriving DecidableEq, Repr

/-- Preset kind (section 11.3). -/
inductive PresetKind where
  | none
  | mass
  | amount
  deriving DecidableEq, Repr

/-- Interval mark of a meter intake record (R170). -/
inductive Interval where
  | gasOpen
  | gasClosed
  deriving DecidableEq, Repr

/-- Meter intake record (R169). -/
structure Intake where
  baseline  : Option (BitVec 16)
  freshness : Freshness
  deadline  : Option Count
  healthy   : Bool
  interval  : Interval
  deriving DecidableEq, Repr

/-- State of a sale record that is not FREE (R176). -/
inductive RecordState where
  | reserved
  | opened
  | closed
  deriving DecidableEq, Repr

/-- A slot with the generation it had at the binding (R65). -/
structure SlotRef where
  slot       : SlotId
  generation : BitVec 16
  deriving DecidableEq, Repr

/-- Bind reference (R65). -/
structure Bind where
  gas      : SlotRef
  protocol : SlotRef
  tariff   : SlotRef
  deriving DecidableEq, Repr

/-- Marks of a sale record (R176). -/
structure Marks where
  meterSuspect     : Bool
  degradedPressure : Bool
  linkLost         : Bool
  clamped          : Bool
  deriving DecidableEq, Repr

/-- A station day and minute. -/
structure Stamp where
  day    : Nat
  minute : Nat
  deriving DecidableEq, Repr

/-- Vent mass as handed over: grams, quality and CLAMPED mark (R94, R177). -/
structure VentMass where
  grams   : Nat
  quality : Quality
  clamped : Bool
  deriving DecidableEq, Repr

/-- Sale record (R176).  A FREE record holds no sale and is the `none` of the log. -/
structure SaleRecord where
  state       : RecordState
  number      : Nat
  position    : Pos
  cls         : DispClass
  card        : CardKind
  contract    : Option Nat
  reference   : BitVec 32
  preset      : PresetKind
  presetValue : Nat
  effective   : Nat
  reservation : Option Nat
  price       : Nat
  bind        : Bind
  start       : Stamp
  finish      : Option Stamp
  startCat    : Option Category
  finalCat    : Option Category
  reason      : Option EndReason
  reasonCond  : Option Condition
  gross       : Nat
  vent        : Option VentMass
  net         : Nat
  billed      : Nat
  overrun     : Nat
  amount      : Nat
  marks       : Marks
  notified    : Bool
  deriving DecidableEq, Repr

/-- Fleet contract (R182). -/
structure Contract where
  id         : Nat
  active     : Bool
  tier       : Nat
  permitH70  : Bool
  permitH35  : Bool
  quota      : Nat
  remaining  : Nat
  reserved   : Nat
  salesToday : Nat
  deriving DecidableEq, Repr

/-- State of the sales unit.  `closure` is the closure list as log slot indices (R181); `retentionLost` is the
retention status found at power-up (R185). -/
structure Sales where
  intake        : Six Intake
  log           : List (Option SaleRecord)
  closure       : List Nat
  counter       : Nat
  contracts     : List Contract
  contractDay   : Nat
  retentionLost : Bool
  deriving DecidableEq, Repr

/-! ## Event unit (section 12.5) -/

/-- Event kinds, in code order (section 12.5). -/
inductive EventKind where
  | trip
  | halted
  | compressorFault
  | retentionLost
  | condition
  | capacityReduced
  | bankCritical
  | logNearFull
  | linkLost
  | authExpired
  | saleClosed
  | tableActivated
  | commandBlocked
  | ringDrop
  deriving DecidableEq, Repr

/-- Scope of an event flag with its index (section 12.5). -/
inductive EventScope where
  | station
  | position (p : Pos)
  | compressor (c : Comp)
  | bank (b : Bank)
  deriving DecidableEq, Repr

/-- Detail of a raise (R102). -/
inductive RaiseDetail where
  | none
  | point (i : Nat)
  | fall (units : Int)
  | count (n : Nat)
  | value (v : Int)
  | meter (delta : Option Nat) (status : Status)
  | meterStale
  | meterNotReady
  deriving DecidableEq, Repr

/-- Detail of an event flag (section 12.5). -/
inductive Detail where
  | none
  | tripCause (c : TripCause)
  | haltedBy (c : Condition)
  | haltedByTrip
  | fault (c : FaultCause)
  | raise (c : Condition) (d : RaiseDetail) (r : Reaction)
  | stationWatch (c : Condition) (point : Nat)
  | capacity (now before after : Nat)
  | freeCount (n : Nat)
  | linkCause (c : LinkCause)
  | sale (number : Nat)
  | activated (k : TableKind) (slot : SlotId) (generation : BitVec 16)
  | point (i : Nat)
  | drops (n : Nat)
  deriving DecidableEq, Repr

/-- A set flag (R194). -/
structure Flag where
  detail  : Detail
  repeats : Nat
  deriving DecidableEq, Repr

/-- State of the event unit: the 46 flags in priority order (R196), `none` for a clear one, and the enable mask,
bit k-1 for event code k. -/
structure EventUnit where
  flags  : List (Option Flag)
  enable : BitVec 14
  deriving DecidableEq, Repr

/-! ## Reports: the contents of responses -/

/-- Site part of a bank record (R125). -/
structure BankSite where
  tier      : Tier
  ceiling   : Nat
  restart   : Nat
  critical  : Nat
  drawPorts : Nat
  demand    : Nat
  deriving DecidableEq, Repr

/-- Site record of a compressor (R142). -/
structure CompSite where
  startTimeout : Nat
  minRun       : Nat
  minOff       : Nat
  deriving DecidableEq, Repr

/-- Result of a lane scan (R16). -/
structure Scan where
  value : Value
  lane  : Pos
  deriving DecidableEq, Repr

/-- STATUS_READ (R193). -/
structure StatusReport where
  strap       : NodeAddr
  trip        : TripState
  cause       : Option TripCause
  timeValid   : Bool
  day         : Nat
  minute      : Nat
  sinceBeacon : Nat
  retentionLost : Bool
  drops       : Nat
  discards    : Nat
  placesTaken : Nat
  notices     : Nat
  positions   : Six PosState
  compressors : Two CompState
  band        : Fin 6
  capacity    : Nat
  heldSum     : Nat
  gasGen      : Option (BitVec 16)
  protocolGen : Option (BitVec 16)
  tariffGen   : Option (BitVec 16)
  siteGen     : Option (BitVec 16)
  freeRecords : Nat
  counter     : Nat
  warmest     : Option Scan
  highest     : Option Scan
  events      : List (Nat × Bool)
  deriving DecidableEq, Repr

/-- POSITION_READ (R101, R103, R117). -/
structure PositionReport where
  state      : PosState
  cls        : Option DispClass
  sale       : Option Nat
  endReason  : Option EndReason
  endCond    : Option Condition
  category   : Option Category
  band       : Option (Fin 6)
  aprr       : Option Nat
  causes     : Option HoldCauses
  resume     : Option Resume
  rampBase   : Option Value
  rampTime   : Option Nat
  target     : Option Target
  opening    : Option Nat
  window     : List Conformance
  outCount   : Nat
  settleP    : Option Value
  initialP   : Option Value
  coupleLeft : Nat
  holdLeft   : Nat
  pulseLeft  : Nat
  ventLeft   : Nat
  link       : Option LinkState
  linkLeft   : Nat
  gross      : Option Nat
  draw       : Draw
  active     : LevelSet
  holdSet    : LevelSet
  raised     : LevelSet
  deriving DecidableEq, Repr

/-- BANK_READ (R137). -/
structure BankReport where
  site : BankSite
  live : BankLive
  routed : Six Bool
  deriving DecidableEq, Repr

/-- What cooling a compressor holds (R151). -/
inductive CompCooling where
  | none
  | request (critical : Bool)
  | allocation (critical : Bool)
  deriving DecidableEq, Repr

/-- COMPRESSOR_READ (R151). -/
structure CompReport where
  site      : CompSite
  state     : CompState
  target    : Option Bank
  runTime   : Option Nat
  timerLeft : Nat
  cooling   : CompCooling
  lastStop  : Option StopReason
  lastFault : Option FaultCause
  queue     : List QueueEntry
  deriving DecidableEq, Repr

/-- One outlet monitor as COOLING_READ reports it (R166). -/
structure MonitorReport where
  last       : LimitOutcome
  settleLeft : Nat
  graceLeft  : Nat
  level      : Bool
  deriving DecidableEq, Repr

/-- COOLING_READ (R166). -/
structure CoolReport where
  ambient      : Option Value
  band         : Fin 6
  chillerRun   : Option Value
  supply       : Option Value
  supplyWithin : Option Bool
  capacity     : Nat
  heldSum      : Nat
  free         : Nat
  table        : List Alloc
  queue        : List CoolRequest
  monitors     : Six MonitorReport
  setpoint     : Option Int
  fromScan     : Bool
  deriving DecidableEq, Repr

/-- Content status of a slot (R54). -/
inductive ContentStatus where
  | empty
  | partly
  | full
  deriving DecidableEq, Repr

/-- One slot as TABLE_QUERY reports it (R57). -/
structure SlotReport where
  role       : Role
  status     : ContentStatus
  bitmap     : List Bool
  generation : Option (BitVec 16)
  binds      : Nat
  refs       : Option (Nat × Nat)
  deriving DecidableEq, Repr

/-- POINT_READ on a sensor point (R18). -/
structure SensorReport where
  function  : Nat
  scope     : EventScope
  value     : Value
  freshness : Freshness
  left      : Nat
  watch     : Option WatchState
  pair      : Option Pair
  deriving DecidableEq, Repr

/-- POINT_READ on an actuator point (R31). -/
structure ActReport where
  function    : Nat
  scope       : EventScope
  bank        : Option Nat
  owner       : Owner
  commanded   : Int
  auto        : Int
  manual      : Int
  safe        : Int
  feedback    : Option (Value × Freshness)
  matching    : MatchState
  discLeft    : Nat
  refreshLeft : Nat
  deriving DecidableEq, Repr

/-- One class column of REACTION_READ: present reaction, default and floor (R109). -/
structure ReactionCell where
  present  : Reaction
  fallback : Reaction
  floor    : Reaction
  deriving DecidableEq, Repr

/-- Content of an MRESP. -/
inductive Content where
  | none
  | status (r : StatusReport)
  | position (r : PositionReport)
  | bank (r : BankReport)
  | compressor (r : CompReport)
  | cooling (r : CoolReport)
  | table (lastGen : BitVec 16) (a b : SlotReport)
  | activated (generation : BitVec 16)
  | failedEntry (entry : Nat) (check : CheckName)
  | contract (c : Contract)
  | sensor (r : SensorReport)
  | actuator (r : ActReport)
  | reactions (cells : List ReactionCell)
  | record (r : SaleRecord)
  | event (kind : EventKind) (scope : EventScope) (f : Flag)
  deriving DecidableEq, Repr

/-! ## Ring port and time base (chapter 12) -/

/-- Result codes (section 12.10). -/
inductive Result where
  | ok
  | busy
  | arg
  | notFound
  | inUse
  | incomplete
  | invalidTable
  | notQuiet
  | tripActive
  | tripSourceActive
  | notSupervisor
  | noTable
  | notTerminal
  | outOfService
  | noTime
  | logFull
  | contract
  | presetLow
  | allowance
  deriving DecidableEq, Repr

/-- COMMAND frame of the part for an actuator point (R27). -/
structure CommandFrame where
  point   : Nat
  dst     : NodeAddr
  channel : Nat
  value   : Int
  deriving DecidableEq, Repr

/-- TRIP frame of the part: state SET or CLEAR and the cause (R33, R37). -/
structure TripFrame where
  set   : Bool
  cause : Option TripCause
  deriving DecidableEq, Repr

/-- A filled slot of the command queue, in the order filled (R27). -/
inductive CommandSlot where
  | point (f : CommandFrame)
  | trip (f : TripFrame)
  deriving DecidableEq, Repr

/-- A sale's common fields of an accepted AUTHORIZE (R174). -/
structure Grant where
  number      : Nat
  effective   : Nat
  price       : Nat
  reservation : Option Nat
  deriving DecidableEq, Repr

/-- Frames of the response queue (R192). -/
inductive Response where
  | mresp (dst : NodeAddr) (tag : BitVec 8) (code : Word) (result : Result) (clamped : Bool) (content : Content)
  | payResult (dst : NodeAddr) (request position : Word) (reference : BitVec 32) (result : Result) (clamped : Bool)
      (grant : Option Grant)
  | sale (dst : NodeAddr) (r : SaleRecord)
  deriving DecidableEq, Repr

/-- NOTICE frame (R195). -/
structure Notice where
  dst     : NodeAddr
  kind    : EventKind
  scope   : EventScope
  detail  : Detail
  repeats : Nat
  deriving DecidableEq, Repr

/-- The frame being transmitted at ring-out (R189). -/
inductive Sending where
  | command (f : CommandFrame)
  | trip (f : TripFrame)
  | forwarded (f : Frame)
  | response (r : Response)
  | notice (n : Notice)
  deriving DecidableEq, Repr

/-- A deferred TRIP_RESET response still to be given (R191, R192). -/
structure Deferred where
  dst : NodeAddr
  tag : BitVec 8
  deriving DecidableEq, Repr

/-- State of the ring port.  `answering` is the model's own: a request is being carried out whose answer is not yet
placed, and its place in the response queue is taken. -/
structure Ring where
  strap      : NodeAddr
  forwarding : List Frame
  commands   : List CommandSlot
  responses  : List Response
  deferred   : Option Deferred
  answering  : Bool
  notices    : List Notice
  sending    : Option Sending
  drops      : Nat
  discards   : Nat
  deriving DecidableEq, Repr

/-- Time base (R197). -/
structure TimeBase where
  count       : Count
  valid       : Bool
  minute      : Nat
  day         : Nat
  mark        : Count
  sinceBeacon : Nat
  deriving DecidableEq, Repr

/-- A hand-over from one block to another that its receiver has not taken yet (sections 0.4 and 0.5.6).  The model's
own: all of them are taken, first in first out, within the event that caused them.  `service` is a service pass to be made
and `serving` the rest of one under way; `release` and `request` are items of the allocator that wait for the pass of an
earlier one (R157). -/
inductive HandOver where
  | port (b : Bank)
  | service
  | serving
  | release (h : Holder)
  | request (r : CoolRequest)
  | settledPosition (p : Pos)
  | settledCompressor (c : Comp) (point : Nat)
  | targetTest (c : Comp)
  | tripSetPosition (p : Pos)
  | tripSetCompressors
  | tripCleared
  deriving DecidableEq, Repr

/-! ## The state -/

/-- Everything the spec gives the part, block by block, with the waiting commands. -/
structure State where
  ring      : Ring
  points    : PointUnit
  tables    : TableStore
  seqs      : Six Seq
  reactions : List Reaction
  banks     : Six BankLive
  draws     : Six Draw
  sched     : Scheduler
  cool      : Cooling
  sales     : Sales
  events    : EventUnit
  time      : TimeBase
  handOvers : List HandOver
  pending   : List Instr
  deriving DecidableEq, Repr

/-- Reasons for a fault: none.  No rule of the spec stops the part, and every command has an effect in every state. -/
inductive Fault where
  deriving DecidableEq, Repr

/-- Reasons for a refusal. -/
inductive Refusal where
  /-- Raised by `exec` alone, for a row of the opcode table without a meaning; no arm raises it.  Safe: it stops
  where the part goes on. -/
  | notModelled (mnemonic : String)
  deriving DecidableEq, Repr

/-! ## Reset -/

/-- An invalid substitute value (section 0.5.3). -/
def Value.substitute (n : Int) : Value := ⟨n, .invalid, false⟩

/-- No hold cause. -/
def HoldCauses.empty : HoldCauses := ⟨false, false, false, false⟩

/-- No level condition. -/
def LevelSet.empty : LevelSet := ⟨false, false, false, false⟩

/-- A slot with nothing written, of a kind with `n` segments (R54, R67). -/
def Slot.empty (n : Nat) : Slot := ⟨.standby, List.replicate n none, none, 0, none⟩

/-- Both slots of a kind at a power-up with the retention store lost (R67). -/
def KindStore.lost (n : Nat) : KindStore := ⟨Slot.empty n, Slot.empty n, 0⟩

/-- The table store at a power-up with the retention store lost (R67). -/
def TableStore.lost : TableStore := ⟨KindStore.lost 35, KindStore.lost 8, KindStore.lost 4, KindStore.lost 52⟩

/-- A pair in pair state NONE (R4, R11). -/
def Pair.start : Pair := ⟨.neither, Value.substitute 10000⟩

/-- A fill context with the fill items absent, in state IDLE, at power-up (R74). -/
def Seq.start : Seq where
  state      := .idle
  sale       := none
  threshold  := none
  band       := none
  category   := none
  resume     := none
  causes     := HoldCauses.empty
  rampBase   := none
  rampMark   := 0
  target     := none
  opening    := 0
  evaluation := none
  window     := []
  settleP    := none
  initialP   := none
  endReason  := none
  endCond    := none
  link       := none
  couple     := none
  holdLimit  := none
  pulse      := none
  phase      := .opening
  ventTimer  := none
  lastP      := none
  lastValidP := none
  active     := LevelSet.empty
  holdSet    := LevelSet.empty
  raised     := LevelSet.empty
  overTest   := .none

/-- A bank at power-up (R138), also where the store is lost and there is no bank record (DESIGN CHOICE,
notes/assumptions/41.md). -/
def BankLive.start : BankLive := ⟨.unknown, Value.substitute 0, Six.all false, [], none⟩

/-- An empty draw record (R138). -/
def Draw.empty : Draw := ⟨none, none, none⟩

/-- A compressor at a power-up with no SITE table (R152).  The rules give no value for the run mark before the first run, and
none for the last stop reason where the store is lost: 0 and absent (DESIGN CHOICE, notes/assumptions/41.md). -/
def CompRecord.start : CompRecord := ⟨.stopped, none, none, 0, none, none, none, none⟩

/-- The scheduler's copy of a bank at power-up (R152), also where the store is lost and no rule gives one (DESIGN CHOICE,
notes/assumptions/41.md). -/
def BankCopy.start : BankCopy := ⟨Value.substitute 0, .unknown⟩

/-- An outlet monitor at power-up (R167). -/
def Monitor.start : Monitor := ⟨none, none, .none, false⟩

/-- A meter intake record at power-up (R171). -/
def Intake.start : Intake := ⟨none, .never, none, true, .gasClosed⟩

/-- The 52 default reactions, four classes to a condition, in code order (R108). -/
def defaultReactions : List Reaction :=
  [.note, .finish, .halt, .halt,
   .note, .note, .halt, .note,
   .note, .note, .hold, .note,
   .note, .note, .finish, .note,
   .note, .note, .note, .note,
   .note, .note, .halt, .note,
   .note, .note, .finish, .note] ++
  [.note, .finish, .finish, .note,
   .note, .note, .finish, .note,
   .note, .finish, .halt, .halt,
   .note, .finish, .halt, .note,
   .note, .note, .halt, .note,
   .note, .note, .note, .note]

/-- The flags right after a power-up with the retention store lost: RETENTION_LOST set, the 45 others clear
(R185, R200). -/
def lostFlags : List (Option Flag) :=
  List.replicate 9 none ++ [some ⟨.none, 1⟩] ++ List.replicate 36 none

/-- The machine right after reset: a power-up with strap address 1 (DESIGN CHOICE, notes/assumptions/1.md) and the
retention store lost (DESIGN CHOICE, notes/assumptions/2.md).  The RETENTION_LOST notice, addressed to 255, is already
under transmission (R185, R189, R200).  The arrival counter and the minute mark start at 0, the
scheduler's copies of the banks at UNKNOWN and 0 INVALID, and the setpoint, before any has been written, as not from the scan
(DESIGN CHOICE, notes/assumptions/41.md). -/
def State.reset : State where
  ring :=
    { strap := 1, forwarding := [], commands := [], responses := [], deferred := none, answering := false, notices := [],
      sending := some (.notice ⟨255, .retentionLost, .station, .none, 1⟩), drops := 0, discards := 0 }
  points :=
    { records := List.replicate 192 .empty, pairs := Six.all Pair.start, trip := .clear, cause := none, settle := none,
      linePulled := false }
  tables := TableStore.lost
  seqs := Six.all Seq.start
  reactions := defaultReactions
  banks := Six.all BankLive.start
  draws := Six.all Draw.empty
  sched := { queue := [], arrivals := 0, comps := Two.all CompRecord.start, copies := Six.all BankCopy.start }
  cool :=
    { band := 5, capacity := 0, table := [], stamps := 0, queue := [], monitors := Six.all Monitor.start,
      fromScan := false }
  sales :=
    { intake := Six.all Intake.start, log := List.replicate 128 none, closure := [], counter := 0, contracts := [],
      contractDay := 0, retentionLost := true }
  events := { flags := lostFlags, enable := BitVec.allOnes 14 }
  time := { count := 0, valid := false, minute := 0, day := 0, mark := 0, sinceBeacon := 0 }
  handOvers := []
  pending := []

end Sys2Proof.Machine
end

