-- ==== Sys2Proof/Machine/Operands.lean ====
section
/-! DEFINITION. Operand forms: how words give numbers and names, the table entries read from slot content
(section 12.10), value sets and substitutes (R2, R21). -/

namespace Sys2Proof.Machine

/-! ## Numbers from words -/

/-- A two's complement word (section 12.10). -/
def signedWord (w : Word) : Int := w.toInt

/-- A two-word field, high word first (section 12.10). -/
def twoWords (hi lo : Word) : Nat := hi.toNat * 65536 + lo.toNat

/-- The nearer end of the range when outside it (section 0.5.2). -/
def clampInt (lo hi v : Int) : Int := if v < lo then lo else if hi < v then hi else v

/-- The worse of two qualities (R10). -/
def Quality.worst : Quality → Quality → Quality
  | .invalid, _ => .invalid
  | _, .invalid => .invalid
  | .degraded, _ => .degraded
  | _, .degraded => .degraded
  | .good, .good => .good

/-- A value is valid unless its quality is INVALID (R10). -/
def Value.valid (v : Value) : Bool := v.quality != .invalid

/-- Position named by a word; none above 5. -/
def positionOfWord (w : Word) : Option Pos := if h : w.toNat < 6 then some ⟨w.toNat, h⟩ else none

/-- Bank named by a word; none above 5. -/
def bankOfWord (w : Word) : Option Bank := if h : w.toNat < 6 then some ⟨w.toNat, h⟩ else none

/-- Compressor named by a word; none above 1. -/
def compressorOfWord (w : Word) : Option Comp := if h : w.toNat < 2 then some ⟨w.toNat, h⟩ else none

/-- Table kind codes GAS 0, PROTOCOL 1, TARIFF 2, SITE 3 (section 12.10). -/
def kindOfWord (w : Word) : Option TableKind :=
  match w.toNat with
  | 0 => some .gas
  | 1 => some .protocol
  | 2 => some .tariff
  | 3 => some .site
  | _ => none

/-- Slot codes A 0, B 1 (section 12.10). -/
def slotOfWord (w : Word) : Option SlotId :=
  match w.toNat with
  | 0 => some .a
  | 1 => some .b
  | _ => none

/-- Condition of a code 1 to 13 (section 6.1). -/
def conditionOfCode (n : Nat) : Option Condition :=
  [Condition.overpressure, .sensorStale, .sensorDisagree, .outOfCategory, .limitWatch, .leak, .conformanceLoss, .tankHot,
    .meterFault, .meterWhileClosed, .valveDiscrepancy, .uncoupled, .ventTimeout][n - 1]?.filter fun _ => n != 0

/-- Code of a condition (section 6.1). -/
def Condition.code : Condition → Nat
  | .overpressure => 1
  | .sensorStale => 2
  | .sensorDisagree => 3
  | .outOfCategory => 4
  | .limitWatch => 5
  | .leak => 6
  | .conformanceLoss => 7
  | .tankHot => 8
  | .meterFault => 9
  | .meterWhileClosed => 10
  | .valveDiscrepancy => 11
  | .uncoupled => 12
  | .ventTimeout => 13

/-- The level conditions (section 6.1). -/
def Condition.isLevel : Condition → Bool
  | .overpressure | .sensorStale | .sensorDisagree | .outOfCategory => true
  | _ => false

/-- State class codes in the order of R107: IDLE 0 to POSTFLOW 3. -/
def classOfWord (w : Word) : Option StateClass :=
  match w.toNat with
  | 0 => some .idle
  | 1 => some .preflow
  | 2 => some .flowing
  | 3 => some .postflow
  | _ => none

/-- Code of a state class (R107). -/
def StateClass.code : StateClass → Nat
  | .idle => 0
  | .preflow => 1
  | .flowing => 2
  | .postflow => 3

/-- Reaction codes in the order of R107: NOTE 0 to TRIP 4. -/
def reactionOfWord (w : Word) : Option Reaction :=
  match w.toNat with
  | 0 => some .note
  | 1 => some .hold
  | 2 => some .finish
  | 3 => some .halt
  | 4 => some .trip
  | _ => none

/-- Rank of a reaction (R107). -/
def Reaction.rank : Reaction → Nat
  | .note => 0
  | .hold => 1
  | .finish => 2
  | .halt => 3
  | .trip => 4

/-- Vehicle command of a LINK frame: RUN 0, HALT 1, ABORT 2, any other code taken as HALT (R116). -/
def vehicleCommandOfWord (w : Word) : VehicleCommand :=
  match w.toNat with
  | 0 => .run
  | 2 => .abort
  | _ => .halt

/-! ## Point functions (R2, R20, R21) -/

/-- Point functions in code order: sensors 1 to 12, actuators 13 to 18 (section 12.10). -/
inductive Fn where
  | outletPA
  | outletPB
  | outletT
  | nozzle
  | bankP
  | dischargeT
  | runFb
  | ambient
  | chillerRun
  | chillerSupplyT
  | detector
  | valveFb
  | fillValve
  | ventValve
  | bankValve
  | compRun
  | dischargeValve
  | chillerSetpoint
  deriving DecidableEq, Repr

/-- Function code (section 12.10). -/
def Fn.code : Fn → Nat
  | .outletPA => 1
  | .outletPB => 2
  | .outletT => 3
  | .nozzle => 4
  | .bankP => 5
  | .dischargeT => 6
  | .runFb => 7
  | .ambient => 8
  | .chillerRun => 9
  | .chillerSupplyT => 10
  | .detector => 11
  | .valveFb => 12
  | .fillValve => 13
  | .ventValve => 14
  | .bankValve => 15
  | .compRun => 16
  | .dischargeValve => 17
  | .chillerSetpoint => 18

/-- Function of a code; none for 0 (an empty entry) and above 18. -/
def fnOfCode : Nat → Option Fn
  | 1 => some .outletPA
  | 2 => some .outletPB
  | 3 => some .outletT
  | 4 => some .nozzle
  | 5 => some .bankP
  | 6 => some .dischargeT
  | 7 => some .runFb
  | 8 => some .ambient
  | 9 => some .chillerRun
  | 10 => some .chillerSupplyT
  | 11 => some .detector
  | 12 => some .valveFb
  | 13 => some .fillValve
  | 14 => some .ventValve
  | 15 => some .bankValve
  | 16 => some .compRun
  | 17 => some .dischargeValve
  | 18 => some .chillerSetpoint
  | _ => none

/-- Sensor functions (R2). -/
def Fn.isSensor (f : Fn) : Bool := f.code ≤ 12

/-- Kind of a sensor function (R2); actuators count as feedback here and are never asked. -/
inductive FnKind where
  | analogue
  | discrete
  | feedback
  deriving DecidableEq, Repr

/-- Kind of a function (R2). -/
def Fn.kind : Fn → FnKind
  | .outletPA | .outletPB | .outletT | .bankP | .dischargeT | .ambient | .chillerSupplyT => .analogue
  | .nozzle | .runFb | .chillerRun | .detector => .discrete
  | _ => .feedback

/-- Functions whose values are signed temperatures (R2, R21). -/
def Fn.isTemperature : Fn → Bool
  | .outletT | .dischargeT | .ambient | .chillerSupplyT | .chillerSetpoint => true
  | _ => false

/-- The lean is LOW for bank pressure alone (R2, section 0.5.4). -/
def Fn.leanLow : Fn → Bool
  | .bankP => true
  | _ => false

/-- Value set of a sensor function, both ends included (R2); of VALVE_FB the widest, see `Slot.valueSet`. -/
def Fn.sensorRange : Fn → Int × Int
  | .outletPA | .outletPB | .bankP => (0, 10000)
  | .outletT | .dischargeT | .ambient | .chillerSupplyT => (-600, 1000)
  | .nozzle => (0, 2)
  | .runFb | .chillerRun | .detector => (0, 1)
  | _ => (0, 1000)

/-- A word as a value of a function: signed for temperatures (section 12.10). -/
def Fn.valueOfWord (f : Fn) (w : Word) : Int := if f.isTemperature then signedWord w else (w.toNat : Int)

/-! ## Slots -/

/-- The words of a segment; none while unwritten, and then every word reads 0 (R54). -/
def Slot.segment (s : Slot) (n : Nat) : List Word := (s.segments.getD n none).getD []

/-- Word `off` of segment `seg`. -/
def Slot.word (s : Slot) (seg off : Nat) : Word := (s.segment seg).getD off 0

/-- An unsigned one-word field. -/
def Slot.nat (s : Slot) (seg off : Nat) : Nat := (s.word seg off).toNat

/-- A signed one-word field. -/
def Slot.int (s : Slot) (seg off : Nat) : Int := signedWord (s.word seg off)

/-- A two-word field. -/
def Slot.nat2 (s : Slot) (seg off : Nat) : Nat := twoWords (s.word seg off) (s.word seg (off + 1))

/-- Segment bitmap (R54). -/
def Slot.bitmap (s : Slot) : List Bool := s.segments.map Option.isSome

/-- Content status (R54). -/
def Slot.status (s : Slot) : ContentStatus :=
  if s.bitmap.all id then .full else if s.bitmap.any id then .partly else .empty

/-- Segments of a kind (section 4.1). -/
def TableKind.segments : TableKind → Nat
  | .gas => 35
  | .protocol => 8
  | .tariff => 4
  | .site => 52

/-- Content words of a segment (section 12.10). -/
def TableKind.segmentLength (k : TableKind) (seg : Nat) : Nat :=
  match k with
  | .gas => if seg = 34 then 17 else 20
  | .protocol => if seg = 0 then 39 else if seg = 1 then 38 else 30
  | .tariff => if seg = 0 then 35 else 34
  | .site => if seg < 48 then 60 else if seg = 48 then 50 else if seg = 51 then 36 else 10

/-- One of the two slots. -/
def KindStore.slot (k : KindStore) : SlotId → Slot
  | .a => k.slotA
  | .b => k.slotB

/-- One of the two slots replaced. -/
def KindStore.setSlot (k : KindStore) (id : SlotId) (s : Slot) : KindStore :=
  match id with
  | .a => { k with slotA := s }
  | .b => { k with slotB := s }

/-- The other slot. -/
def SlotId.other : SlotId → SlotId
  | .a => .b
  | .b => .a

/-- Which slot is ACTIVE, if any (R54). -/
def KindStore.activeId (k : KindStore) : Option SlotId :=
  if k.slotA.role = .active then some .a else if k.slotB.role = .active then some .b else none

/-- The ACTIVE slot, if any (R54). -/
def KindStore.active (k : KindStore) : Option Slot := k.activeId.map k.slot

/-- The store of a kind. -/
def TableStore.kind (t : TableStore) : TableKind → KindStore
  | .gas => t.gas
  | .protocol => t.protocol
  | .tariff => t.tariff
  | .site => t.site

/-- The store of a kind replaced. -/
def TableStore.setKind (t : TableStore) (k : TableKind) (s : KindStore) : TableStore :=
  match k with
  | .gas => { t with gas := s }
  | .protocol => { t with protocol := s }
  | .tariff => { t with tariff := s }
  | .site => { t with site := s }

/-! ## GAS entries (R41) -/

/-- Grid entry D[i][j], entry n = 17 i + j, in segment n div 20. -/
def Slot.grid (s : Slot) (i j : Nat) : Nat := s.nat ((17 * i + j) / 20) ((17 * i + j) % 20)

/-! ## PROTOCOL entries (R68 to R71) -/

/-- Class header (R69), fields in table order. -/
structure ClassHeader where
  nominal      : Nat
  maxLimit     : Nat
  cap          : Nat
  socEnd       : Nat
  tankTempMax  : Int
  minInitial   : Nat
  pulseOpening : Nat
  pulseOpen    : Nat
  pulseSettle  : Nat
  leakLimit    : Nat
  rampDelay    : Nat
  conformanceN : Nat
  gain         : Nat
  maxStep      : Nat
  openLimit    : Nat
  switchDiff   : Nat
  anticipation : Nat
  minSale      : Nat
  maxSale      : Nat
  meterDelta   : Nat
  creep        : Nat
  sensorTol    : Nat
  linkTimeout  : Nat
  linkTol      : Nat
  holdLimit    : Nat
  couple       : Nat
  ventDone     : Nat
  ventTimeout  : Nat
  catSettle    : Nat
  catGrace     : Nat
  deriving DecidableEq, Repr

/-- Number of a class: H70 0, H35 1 (R68). -/
def DispClass.index : DispClass → Nat
  | .h70 => 0
  | .h35 => 1

/-- Class of a number 0 or 1. -/
def classOfNat : Nat → Option DispClass
  | 0 => some .h70
  | 1 => some .h35
  | _ => none

/-- Number of a category: T40 0, T30 1, T20 2 (R68). -/
def Category.index : Category → Nat
  | .t40 => 0
  | .t30 => 1
  | .t20 => 2

/-- The categories, coldest first. -/
def allCategories : List Category := [.t40, .t30, .t20]

/-- Nominal pressure of a class (R44). -/
def DispClass.nominal : DispClass → Nat
  | .h70 => 7000
  | .h35 => 3500

/-- The class header of a PROTOCOL slot (R68, R69). -/
def Slot.header (s : Slot) (c : DispClass) : ClassHeader where
  nominal      := s.nat c.index 0
  maxLimit     := s.nat c.index 1
  cap          := s.nat c.index 2
  socEnd       := s.nat c.index 3
  tankTempMax  := s.int c.index 4
  minInitial   := s.nat c.index 5
  pulseOpening := s.nat c.index 6
  pulseOpen    := s.nat c.index 7
  pulseSettle  := s.nat c.index 8
  leakLimit    := s.nat c.index 9
  rampDelay    := s.nat c.index 10
  conformanceN := s.nat c.index 11
  gain         := s.nat c.index 12
  maxStep      := s.nat c.index 13
  openLimit    := s.nat c.index 14
  switchDiff   := s.nat c.index 15
  anticipation := s.nat c.index 16
  minSale      := s.nat2 c.index 17
  maxSale      := s.nat2 c.index 19
  meterDelta   := s.nat c.index 21
  creep        := s.nat c.index 22
  sensorTol    := s.nat c.index 23
  linkTimeout  := s.nat c.index 24
  linkTol      := s.nat c.index 25
  holdLimit    := s.nat2 c.index 26
  couple       := s.nat2 c.index 28
  ventDone     := s.nat c.index 30
  ventTimeout  := s.nat c.index 31
  catSettle    := s.nat c.index 32
  catGrace     := s.nat c.index 33

/-- Ambient band edge `k` of 0 to 4 (R70). -/
def Slot.bandEdge (s : Slot) (k : Nat) : Int := s.int 0 (34 + k)

/-- The five band edges. -/
def Slot.bandEdges (s : Slot) : List Int := [0, 1, 2, 3, 4].map s.bandEdge

/-- Category outlet upper limit (R70). -/
def Slot.categoryLimit (s : Slot) (c : Category) : Int := s.int 1 (34 + c.index)

/-- Setpoint margin (R70). -/
def Slot.margin (s : Slot) : Nat := s.nat 1 37

/-- Combination entry (R71). -/
structure Combination where
  aprr     : Nat
  tolAbove : Nat
  tolBelow : Nat
  endPress : Nat
  demand   : Nat
  deriving DecidableEq, Repr

/-- The combination entry of a class, band and category (R68). -/
def Slot.combination (s : Slot) (k : DispClass) (b : Nat) (c : Category) : Combination :=
  let seg := 2 + b
  let off := 5 * (3 * k.index + c.index)
  ⟨s.nat seg off, s.nat seg (off + 1), s.nat seg (off + 2), s.nat seg (off + 3), s.nat seg (off + 4)⟩

/-! ## TARIFF entries (R63) -/

/-- Start minute of price band `b`. -/
def Slot.bandStart (s : Slot) (b : Nat) : Nat := s.nat (b / 2) (17 * (b % 2))

/-- Price of a band, class and tier, milli/kg. -/
def Slot.price (s : Slot) (b : Nat) (k : DispClass) (tier : Nat) : Nat :=
  s.nat2 (b / 2) (17 * (b % 2) + 1 + 2 * (4 * k.index + tier))

/-- Rounding mode word: HALF_UP 0, DOWN 1. -/
def Slot.rounding (s : Slot) : Nat := s.nat 0 34

/-- The highest band whose start minute is at or below `m` (R63). -/
def Slot.priceBand (s : Slot) (m : Nat) : Nat :=
  (([7, 6, 5, 4, 3, 2, 1].find? fun b => s.bandStart b ≤ m)).getD 0

/-! ## SITE entries (R64, section 12.10) -/

/-- Scope word: kind in the high byte (station 0, position 1, compressor 2, bank 3), index in the low byte
(PRESUMED, notes/assumptions/8.md). -/
def scopeOfWord (w : Word) : Option EventScope :=
  let n := w.toNat % 256
  match w.toNat / 256 with
  | 0 => if n = 0 then some .station else none
  | 1 => if h : n < 6 then some (.position ⟨n, h⟩) else none
  | 2 => if h : n < 2 then some (.compressor ⟨n, h⟩) else none
  | 3 => if h : n < 6 then some (.bank ⟨n, h⟩) else none
  | _ => none

/-- A non-empty point entry (R1, R20). -/
structure PointEntry where
  node      : Nat
  channel   : Nat
  fn        : Fn
  scope     : EventScope
  deadline  : Nat
  stale     : Int
  watch     : Option (Int × Nat)
  bank      : Nat
  prop      : Bool
  safe      : Int
  refresh   : Nat
  feedback  : Option Nat
  discTime  : Nat
  deriving DecidableEq, Repr

/-- Word `k` (0 to 14) of point entry `i`. -/
def Slot.pointWord (s : Slot) (i k : Nat) : Word := s.word (i / 4) (15 * (i % 4) + k)

/-- A named feedback point: FFFF stands for none, and sensors and the chiller setpoint have none (R20, section 12.10). -/
def feedbackOfWord (f : Fn) (w : Word) : Option Nat :=
  if f.isSensor ∨ f = .chillerSetpoint ∨ w.toNat = 65535 then none else some w.toNat

/-- The feedback point that entry `i` names, whatever the entry's other words (R20, R61). -/
def Slot.names (s : Slot) (i : Nat) : Option Nat :=
  (fnOfCode (s.pointWord i 2).toNat).bind fun f => feedbackOfWord f (s.pointWord i 13)

/-- Point entry `i`; none for an empty entry (R1, R20). -/
def Slot.point (s : Slot) (i : Nat) : Option PointEntry :=
  match fnOfCode (s.pointWord i 2).toNat with
  | none => none
  | some f =>
    match scopeOfWord (s.pointWord i 3) with
    | none => none
    | some sc =>
      some
        { node := (s.pointWord i 0).toNat, channel := (s.pointWord i 1).toNat, fn := f, scope := sc,
          deadline := (s.pointWord i 4).toNat, stale := f.valueOfWord (s.pointWord i 5),
          watch := if f.kind = .analogue ∧ (s.pointWord i 6).toNat = 1
            then some (f.valueOfWord (s.pointWord i 7), (s.pointWord i 8).toNat) else none,
          bank := (s.pointWord i 9).toNat,
          prop := decide ((s.pointWord i 10).toNat = 1) && (f != .chillerSetpoint),
          safe := f.valueOfWord (s.pointWord i 11), refresh := (s.pointWord i 12).toNat,
          feedback := feedbackOfWord f (s.pointWord i 13),
          discTime := (s.pointWord i 14).toNat }

/-- The point indices 0 to 191. -/
def pointIndices : List Nat := List.range Config.pointCount

/-- Value set of a proportional or an on/off actuator (R21). -/
def driveRange (prop : Bool) : Int × Int := if prop then (0, 1000) else (0, 1)

/-- Value set of an actuator point (R21). -/
def PointEntry.actRange (e : PointEntry) : Int × Int :=
  if e.fn = .chillerSetpoint then (-600, 1000) else driveRange e.prop

/-- Value set of sensor entry `i`: a VALVE_FB reports in that of the actuator that names it (R2, R21), the lowest where
several do, and in the widest where none does (neither passes validation; DESIGN CHOICE, notes/assumptions/15.md). -/
def Slot.valueSet (s : Slot) (i : Nat) (e : PointEntry) : Int × Int :=
  if e.fn = .valveFb then
    match pointIndices.find? fun j => s.names j == some i with
    | some j => driveRange ((s.pointWord j 10).toNat == 1)
    | none => e.fn.sensorRange
  else e.fn.sensorRange

/-- The value a job writes for open or on (R21). -/
def PointEntry.openValue (e : PointEntry) : Int := e.actRange.2

/-- A value clamped to the point's value set (R21, R25). -/
def PointEntry.clampAct (e : PointEntry) (v : Int) : Int := clampInt e.actRange.1 e.actRange.2 v

/-- Stale substitute (R2): the end of the range on the unsafe side for an analogue point, the entry's own otherwise. -/
def PointEntry.substitute (e : PointEntry) : Int :=
  match e.fn.kind with
  | .analogue => if e.fn.leanLow then e.fn.sensorRange.1 else e.fn.sensorRange.2
  | _ => e.stale

/-- Tier codes LOW 0, MID 1, HIGH 2 (R125). -/
def tierOfNat : Nat → Tier
  | 0 => .low
  | 1 => .mid
  | _ => .high

/-- Site part of bank `b` (R125). -/
def Slot.bankSite (s : Slot) (b : Nat) : BankSite :=
  ⟨tierOfNat (s.nat 48 (6 * b)), s.nat 48 (6 * b + 1), s.nat 48 (6 * b + 2), s.nat 48 (6 * b + 3), s.nat 48 (6 * b + 4),
    s.nat 48 (6 * b + 5)⟩

/-- Bank sequence of a class: a count, then its bank ids in draw order (section 8.2). -/
def Slot.sequence (s : Slot) (k : DispClass) : List Bank :=
  ((List.range (s.nat 48 (36 + 7 * k.index))).map fun n => s.word 48 (37 + 7 * k.index + n)).filterMap bankOfWord

/-- Site record of compressor `c` (R142). -/
def Slot.compSite (s : Slot) (c : Nat) : CompSite := ⟨s.nat 49 (5 * c), s.nat2 49 (5 * c + 1), s.nat2 49 (5 * c + 3)⟩

/-- Chiller and station record (R153, R190). -/
structure StationSite where
  capacities  : List Nat
  supplyLimit : Int
  idleSet     : Int
  supervisor  : Nat
  beaconLimit : Nat
  deriving DecidableEq, Repr

/-- The chiller and station record of a SITE slot (R153, R190). -/
def Slot.station (s : Slot) : StationSite :=
  ⟨[0, 1, 2, 3, 4, 5].map (s.nat 50), s.int 50 6, s.int 50 7, s.nat 50 8, s.nat 50 9⟩

/-- Position record (R168). -/
structure PosSite where
  cls        : DispClass
  hose       : Nat
  link       : Nat
  terminal   : Nat
  meter      : Nat
  meterTime  : Nat
  deriving DecidableEq, Repr

/-- The position record of position `p` (R168). -/
def Slot.posSite (s : Slot) (p : Pos) : PosSite :=
  ⟨if s.nat 51 (6 * p.val) = 0 then .h70 else .h35, s.nat 51 (6 * p.val + 1), s.nat 51 (6 * p.val + 2),
    s.nat 51 (6 * p.val + 3), s.nat 51 (6 * p.val + 4), s.nat 51 (6 * p.val + 5)⟩

end Sys2Proof.Machine
end

