-- ==== Sys2Proof/Machine/Gas.lean ====
section
/-! DEFINITION. The gas arithmetic unit (chapter 3). -/

namespace Sys2Proof.Machine

/-- Cell index and offset along one axis of `last + 1` cells of `step` units: the far edge belongs to the last cell
(R42). -/
def gridCell (x step last : Nat) : Nat × Nat :=
  if x / step = last + 1 then (last, step) else (x / step, x % step)

/-- Density at an in-range pressure and temperature offset, from the four corners (R43). -/
def interpolate (d00 d10 d01 d11 fp ft : Nat) : Nat :=
  let d0 := d00 * (250 - fp) + d10 * fp
  let d1 := d01 * (250 - fp) + d11 * fp
  (d0 * (100 - ft) + d1 * ft + 12500) / 25000

/-- Density number D(P, T) of a GAS slot for inputs already in range (R42, R43). -/
def Slot.densityAt (g : Slot) (p t : Nat) : Nat :=
  let (i, fp) := gridCell p 250 39
  let (j, ft) := gridCell t 100 15
  interpolate (g.grid i j) (g.grid (i + 1) j) (g.grid i (j + 1)) (g.grid (i + 1) (j + 1)) fp ft

/-- Density D(P, T) with its quality and CLAMPED mark (R42, R43). -/
def Slot.density (g : Slot) (p t : Value) : Value :=
  let pc := clampInt 0 10000 p.num
  let tc := clampInt (-600) 1000 t.num
  { num := (g.densityAt pc.toNat (tc + 600).toNat : Int),
    quality := p.quality.worst t.quality,
    clamped := p.clamped || t.clamped || pc != p.num || tc != t.num }

/-- Reference density of a class: D(nominal pressure, +15.0 °C) (R44). -/
def Slot.reference (g : Slot) (k : DispClass) : Nat := g.densityAt k.nominal 750

/-- Both reference densities, H70 first (R44). -/
def Slot.references (g : Slot) : Nat × Nat := (g.reference .h70, g.reference .h35)

/-- State of charge from the tank density and the reference density (R46). -/
def stateOfCharge (d : Value) (ref : Nat) : Value :=
  let soc := (d.num.toNat * 1000 + ref / 2) / ref
  { num := ((min soc 1500 : Nat) : Int), quality := d.quality, clamped := d.clamped || decide (1500 < soc) }

/-- Ramp target (R47). -/
def rampTarget (base : Value) (aprr time cap : Nat) : Value :=
  let t := base.num + (((aprr * time + 5000) / 10000 : Nat) : Int)
  if (cap : Int) < t ∨ (cap : Int) ≤ base.num then { num := cap, quality := base.quality, clamped := true }
  else { num := t, quality := base.quality, clamped := base.clamped }

/-- Ramp target with its tolerance band (R48). -/
def rampBand (target : Value) (above below maxLimit : Nat) : Target :=
  { target := target, upper := min (target.num + above) maxLimit, lower := max (target.num - below) 0 }

/-- In-band test (R48). -/
def Target.inBand (t : Target) (p : Int) : Bool := t.lower ≤ p && p ≤ t.upper

/-- Valve step: the new opening from the present one, with whether stage 3 clipped the step or stage 4 saturated the
opening (R50); an INVALID pressure holds it (R51). -/
def valveStep (target : Int) (p : Value) (opening gain maxStep openLimit : Nat) : ValveStep :=
  if p.valid then
    let e := ((target - p.num) * gain).tdiv 64
    let step := clampInt (-(maxStep : Int)) maxStep e
    let o := clampInt 0 openLimit ((opening : Int) + step)
    ⟨o.toNat, decide (step ≠ e), decide (o ≠ (opening : Int) + step), false⟩
  else ⟨opening, false, false, true⟩

/-- Grams of gas in a hose of `volume` (0.01 L) at a density (R52). -/
def ventGrams (density volume : Nat) : Nat := (density * volume + 5000) / 10000

/-- Vent mass (R52); an INVALID input takes the densest gas of the class instead (R53). -/
def ventMass (g : Slot) (p t : Value) (volume maxLimit : Nat) : VentMass :=
  if p.valid && t.valid then
    let d := g.density p t
    ⟨ventGrams d.num.toNat volume, d.quality, d.clamped⟩
  else
    let d := g.density ⟨maxLimit, .good, false⟩ ⟨-600, .good, false⟩
    ⟨ventGrams d.num.toNat volume, .degraded, false⟩

/-- Lane scan over the lanes that take part, in position order (R16); `greater` picks MAX, otherwise MIN. -/
def laneScan (greater : Bool) (lanes : List (Pos × Value)) : Option Scan :=
  lanes.foldl
    (fun acc (p, v) =>
      match acc with
      | none => some ⟨v, p⟩
      | some a =>
        let wins := if greater then a.value.num < v.num else v.num < a.value.num
        some
          { value := ⟨if wins then v.num else a.value.num, a.value.quality.worst v.quality, a.value.clamped || v.clamped⟩,
            lane := if wins then p else a.lane })
    none

end Sys2Proof.Machine
end

