-- ==== Sys2Proof/Machine/Ops.lean ====
section
/-! DEFINITION. The named operations over the state: one read and one update for each block, the time base's counts,
point lookups, the record and tables of a position, and the queue of hand-overs. -/

namespace Sys2Proof.Machine

/-! ## Updates, one per block -/

/-- The ring port changed. -/
def State.mapRing (s : State) (f : Ring → Ring) : State := { s with ring := f s.ring }

/-- The point unit changed. -/
def State.mapPoints (s : State) (f : PointUnit → PointUnit) : State := { s with points := f s.points }

/-- The table store changed. -/
def State.mapTables (s : State) (f : TableStore → TableStore) : State := { s with tables := f s.tables }

/-- The fill context of position `p` changed. -/
def State.mapSeq (s : State) (p : Pos) (f : Seq → Seq) : State := { s with seqs := s.seqs.modify p f }

/-- The reaction table replaced. -/
def State.setReactions (s : State) (r : List Reaction) : State := { s with reactions := r }

/-- The live part of bank `b` changed. -/
def State.mapBank (s : State) (b : Bank) (f : BankLive → BankLive) : State := { s with banks := s.banks.modify b f }

/-- The draw record of position `p` replaced. -/
def State.setDraw (s : State) (p : Pos) (d : Draw) : State := { s with draws := s.draws.set p d }

/-- The compression scheduler changed. -/
def State.mapSched (s : State) (f : Scheduler → Scheduler) : State := { s with sched := f s.sched }

/-- The record of compressor `c` changed. -/
def State.mapComp (s : State) (c : Comp) (f : CompRecord → CompRecord) : State :=
  s.mapSched fun d => { d with comps := d.comps.modify c f }

/-- The cooling allocator changed. -/
def State.mapCool (s : State) (f : Cooling → Cooling) : State := { s with cool := f s.cool }

/-- The outlet monitor of position `p` changed. -/
def State.mapMonitor (s : State) (p : Pos) (f : Monitor → Monitor) : State :=
  s.mapCool fun c => { c with monitors := c.monitors.modify p f }

/-- The sales unit changed. -/
def State.mapSales (s : State) (f : Sales → Sales) : State := { s with sales := f s.sales }

/-- The event unit changed. -/
def State.mapEvents (s : State) (f : EventUnit → EventUnit) : State := { s with events := f s.events }

/-- The time base changed. -/
def State.mapTime (s : State) (f : TimeBase → TimeBase) : State := { s with time := f s.time }

/-- A hand-over joins the queue of hand-overs at the back. -/
def State.emit (s : State) (h : HandOver) : State := { s with handOvers := s.handOvers ++ [h] }

/-- The waiting commands replaced. -/
def State.setPending (s : State) (q : List Instr) : State := { s with pending := q }

/-! ## Reads -/

/-- The fill context of position `p`. -/
def State.seq (s : State) (p : Pos) : Seq := s.seqs.get p

/-- The live part of bank `b`. -/
def State.bank (s : State) (b : Bank) : BankLive := s.banks.get b

/-- The draw record of position `p`. -/
def State.draw (s : State) (p : Pos) : Draw := s.draws.get p

/-- The record of compressor `c`. -/
def State.comp (s : State) (c : Comp) : CompRecord := s.sched.comps.get c

/-! ## Counts (R197) -/

/-- The present count. -/
def State.now (s : State) : Count := s.time.count

/-- The count `ms` milliseconds from now. -/
def State.after (s : State) (ms : Nat) : Count := s.time.count + BitVec.ofNat 32 ms

/-- Milliseconds from count `c` to now, with the wrap (R85). -/
def State.since (s : State) (c : Count) : Nat := (s.time.count - c).toNat

/-- A deadline has been reached, the wrap taken into account (R197). -/
def State.reached (s : State) (d : Count) : Bool := s.since d < 2147483648

/-- Milliseconds left on a timer; 0 for a stopped or reached one. -/
def State.left (s : State) (d : Option Count) : Nat :=
  match d with
  | none => 0
  | some d => if s.reached d then 0 else (d - s.time.count).toNat

/-- The expiry of deadline `d` is taken: the counter stands at `d`, or beyond it when the expiry is taken late
(DEDUCED, notes/assumptions/4.md). -/
def State.arriveAt (s : State) (d : Count) : State :=
  if s.reached d then s else s.mapTime fun t => { t with count := d }

/-! ## Tables -/

/-- The ACTIVE SITE slot (R1). -/
def State.site (s : State) : Option Slot := s.tables.site.active

/-- The ACTIVE PROTOCOL slot. -/
def State.protocol (s : State) : Option Slot := s.tables.protocol.active

/-- The chiller and station record in force (R153, R190). -/
def State.station (s : State) : Option StationSite := s.site.map Slot.station

/-- The position record in force (R168). -/
def State.posSite (s : State) (p : Pos) : Option PosSite := s.site.map fun t => t.posSite p

/-- The class of a position; H70 stands in while no SITE slot is ACTIVE, when no rule asks for it (R74). -/
def State.cls (s : State) (p : Pos) : DispClass := ((s.posSite p).map PosSite.cls).getD .h70

/-- The site record of a compressor; zeros while there is none (R152). -/
def State.compSite (s : State) (c : Comp) : CompSite := ((s.site.map fun t => t.compSite c.val)).getD ⟨0, 0, 0⟩

/-- The site part of a bank record; zeros while there is none (R138). -/
def State.bankSite (s : State) (b : Bank) : BankSite := ((s.site.map fun t => t.bankSite b.val)).getD ⟨.low, 0, 0, 0, 0, 0⟩

/-- The bank sequence of a class (section 8.2). -/
def State.sequence (s : State) (k : DispClass) : List Bank := ((s.site.map fun t => t.sequence k)).getD []

/-! ## Points -/

/-- Entry `i` of the point table (R1). -/
def State.entry (s : State) (i : Nat) : Option PointEntry := s.site.bind fun t => t.point i

/-- Value set of sensor point `i` (R2). -/
def State.valueSet (s : State) (i : Nat) (e : PointEntry) : Int × Int :=
  match s.site with
  | some t => t.valueSet i e
  | none => e.fn.sensorRange

/-- What the point unit keeps for point `i`. -/
def State.record (s : State) (i : Nat) : PointRecord := s.points.records.getD i .empty

/-- The live record of sensor point `i`. -/
def State.live (s : State) (i : Nat) : Option LiveRecord :=
  match s.record i with
  | .sensor r => some r
  | _ => none

/-- The actuator record of point `i`. -/
def State.act (s : State) (i : Nat) : Option ActRecord :=
  match s.record i with
  | .actuator r => some r
  | _ => none

/-- The record of point `i` replaced. -/
def State.setRecord (s : State) (i : Nat) (r : PointRecord) : State :=
  s.mapPoints fun u => { u with records := u.records.set i r }

/-- The value of a live record. -/
def LiveRecord.toValue (r : LiveRecord) : Value := ⟨r.value, r.quality, r.clamped⟩

/-- A point is valid while its freshness is FRESH (R3). -/
def LiveRecord.isValid (r : LiveRecord) : Bool := r.freshness == .fresh

/-- The lowest point of a function and scope: the only one of the functions R64 asks for exactly once, and one of several
perhaps for BANK_P (DESIGN CHOICE, notes/assumptions/42.md). -/
def State.findPoint (s : State) (f : Fn) (sc : EventScope) : Option Nat :=
  match s.site with
  | none => none
  | some t =>
    pointIndices.find? fun i =>
      (t.pointWord i 2).toNat == f.code && (t.point i).any fun e => e.scope == sc

/-- The BANK_VALVE or DISCHARGE_VALVE point of a scope for bank `b` (R20). -/
def State.findValve (s : State) (f : Fn) (sc : EventScope) (b : Bank) : Option Nat :=
  match s.site with
  | none => none
  | some t =>
    pointIndices.find? fun i =>
      (t.pointWord i 2).toNat == f.code && (t.point i).any fun e => e.scope == sc && e.bank == b.val

/-- All points whose entry satisfies `q`, in index order. -/
def State.pointsWhere (s : State) (q : PointEntry → Bool) : List Nat :=
  match s.site with
  | none => []
  | some t => pointIndices.filter fun i => (t.point i).any q

/-- The value of the sensor point of a function and scope, if the table has one. -/
def State.sensor (s : State) (f : Fn) (sc : EventScope) : Option LiveRecord :=
  (s.findPoint f sc).bind s.live

/-- A position's OUTLET_T value; the INVALID substitute when there is none. -/
def State.outletT (s : State) (p : Pos) : Value :=
  match s.sensor .outletT (.position p) with
  | some r => r.toValue
  | none => Value.substitute 1000

/-- A position's combined outlet pressure (R11). -/
def State.combined (s : State) (p : Pos) : Value := (s.points.pairs.get p).combined

/-- The NOZZLE point is valid and holds `code` (R2). -/
def State.nozzleIs (s : State) (p : Pos) (code : Int) : Bool :=
  match s.sensor .nozzle (.position p) with
  | some r => r.isValid && r.value == code
  | none => false

/-- The trip latch is set in LATCHED and SETTLING (section 2.7). -/
def State.latched (s : State) : Bool := s.points.trip != .clear

/-! ## The record of a position and what it is bound to -/

/-- Log slot of the RESERVED or OPEN record of a position (R176). -/
def State.recordSlot (s : State) (p : Pos) : Option Nat :=
  s.sales.log.findIdx? fun r => r.any fun r => r.position == p && r.state != .closed

/-- Sale record in log slot `i`. -/
def State.logAt (s : State) (i : Nat) : Option SaleRecord := s.sales.log.getD i none

/-- Log slot `i` replaced; `none` makes it FREE. -/
def State.setLog (s : State) (i : Nat) (r : Option SaleRecord) : State :=
  s.mapSales fun u => { u with log := u.log.set i r }

/-- The RESERVED or OPEN record of a position. -/
def State.saleOf (s : State) (p : Pos) : Option SaleRecord := (s.recordSlot p).bind s.logAt

/-- The position's record changed, where it has one. -/
def State.mapSale (s : State) (p : Pos) (f : SaleRecord → SaleRecord) : State :=
  match s.recordSlot p, s.saleOf p with
  | some i, some r => s.setLog i (some (f r))
  | _, _ => s

/-- FREE records of the log (R176). -/
def State.freeRecords (s : State) : Nat := s.sales.log.countP Option.isNone

/-- The PROTOCOL slot bound to the position's record (R65). -/
def State.boundProtocol (s : State) (p : Pos) : Option Slot :=
  (s.saleOf p).map fun r => s.tables.protocol.slot r.bind.protocol.slot

/-- The GAS slot bound to the position's record (R40, R65). -/
def State.boundGas (s : State) (p : Pos) : Option Slot :=
  (s.saleOf p).map fun r => s.tables.gas.slot r.bind.gas.slot

/-- The header for a position: bound to its record, otherwise of the ACTIVE PROTOCOL slot (R13, R106, R169). -/
def State.headerFor (s : State) (p : Pos) : Option ClassHeader :=
  match s.boundProtocol p with
  | some t => some (t.header (s.cls p))
  | none => s.protocol.map fun t => t.header (s.cls p)

/-- The header of a slot with nothing written, used only where a fill has no record, which no run reaches. -/
def ClassHeader.blank : ClassHeader := (Slot.empty 8).header .h70

/-- The header of a fill (R73). -/
def State.header (s : State) (p : Pos) : ClassHeader := (s.headerFor p).getD ClassHeader.blank

/-- The combination of a fill's class, a band and a category in its bound slot (R71). -/
def State.combinationAt (s : State) (p : Pos) (b : Nat) (c : Category) : Combination :=
  ((s.boundProtocol p).map fun t => t.combination (s.cls p) b c).getD ⟨0, 0, 0, 0, 0⟩

/-- The combination in force for a fill (R71). -/
def State.combination (s : State) (p : Pos) : Combination :=
  match (s.seq p).band, (s.seq p).category with
  | some b, some c => s.combinationAt p b.val c
  | _, _ => ⟨0, 0, 0, 0, 0⟩

/-! ## State classes (R107) -/

/-- The class of a state; HALTED has none. -/
def PosState.stateClass : PosState → Option StateClass
  | .idle | .outOfService => some .idle
  | .authorized | .admitting => some .preflow
  | .pulse | .ramp | .switch | .hold => some .flowing
  | .vent | .done => some .postflow
  | .halted => none

/-- PULSE, RAMP, SWITCH and HOLD. -/
def PosState.flowing (t : PosState) : Bool := t.stateClass == some .flowing

/-- PULSE through VENT (R96, R169). -/
def PosState.metered (t : PosState) : Bool := t.flowing || t == .vent

/-- AUTHORIZED through VENT: the states with a fill (R73). -/
def PosState.inFill (t : PosState) : Bool := t.metered || t == .authorized || t == .admitting

/-! ## Sets of levels and causes -/

/-- Membership of a condition in a level set; event conditions are in none. -/
def LevelSet.has (l : LevelSet) : Condition → Bool
  | .overpressure => l.overpressure
  | .sensorStale => l.sensorStale
  | .sensorDisagree => l.sensorDisagree
  | .outOfCategory => l.outOfCategory
  | _ => false

/-- A level condition put in or out of the set. -/
def LevelSet.put (l : LevelSet) (c : Condition) (b : Bool) : LevelSet :=
  match c with
  | .overpressure => { l with overpressure := b }
  | .sensorStale => { l with sensorStale := b }
  | .sensorDisagree => { l with sensorDisagree := b }
  | .outOfCategory => { l with outOfCategory := b }
  | _ => l

/-- The level conditions in code order. -/
def levelConditions : List Condition := [.overpressure, .sensorStale, .sensorDisagree, .outOfCategory]

/-- No condition in the set. -/
def LevelSet.isEmpty (l : LevelSet) : Bool := l == LevelSet.empty

/-- One hold cause by name (R91). -/
inductive Cause where
  | vehicle
  | bank
  | cooling
  | condition
  deriving DecidableEq, Repr

/-- Membership of a hold cause. -/
def HoldCauses.has (h : HoldCauses) : Cause → Bool
  | .vehicle => h.vehicle
  | .bank => h.bank
  | .cooling => h.cooling
  | .condition => h.condition

/-- A hold cause put in or out of the set. -/
def HoldCauses.put (h : HoldCauses) (c : Cause) (b : Bool) : HoldCauses :=
  match c with
  | .vehicle => { h with vehicle := b }
  | .bank => { h with bank := b }
  | .cooling => { h with cooling := b }
  | .condition => { h with condition := b }

/-- No cause in the set. -/
def HoldCauses.isEmpty (h : HoldCauses) : Bool := h == HoldCauses.empty

end Sys2Proof.Machine
end

