-- ==== Sys2Proof/Machine/Ring.lean ====
section
/-! DEFINITION. The ring port's queues and the ring-out arbiter (R27, R186, R189, R192), frames as words and the frame
check (section 12.10). -/

namespace Sys2Proof.Machine

/-- The part is addressed with a strap address of 1 to 254 (R186). -/
def State.addressed (s : State) : Bool := s.ring.strap != 0 && s.ring.strap != 255

/-- The arbiter's choice: the first frame of the first non-empty source, with that frame taken out (R189). -/
def Ring.choose (r : Ring) : Option (Sending × Ring) :=
  match r.commands, r.forwarding, r.responses, r.notices with
  | .point f :: q, _, _, _ => some (.command f, { r with commands := q })
  | .trip f :: q, _, _, _ => some (.trip f, { r with commands := q })
  | [], f :: q, _, _ => some (.forwarded f, { r with forwarding := q })
  | [], [], f :: q, _ => some (.response f, { r with responses := q })
  | [], [], [], n :: q => some (.notice n, { r with notices := q })
  | [], [], [], [] => none

/-- When ring-out is idle the arbiter starts the first waiting frame (R189). -/
def Ring.arbitrate (r : Ring) : Ring :=
  match r.sending with
  | some _ => r
  | none =>
    match r.choose with
    | some (f, r') => { r' with sending := some f }
    | none => r

/-- Places taken in the response queue: waiting frames, a deferred response, and the answer under way (R192). -/
def Ring.placesTaken (r : Ring) : Nat :=
  r.responses.length + (if r.deferred.isSome then 1 else 0) + (if r.answering then 1 else 0)

/-- The response queue has a free place (R192). -/
def Ring.hasPlace (r : Ring) : Bool := r.placesTaken < Config.responsePlaces

/-- The command queue's slot of a frame (R27). -/
def CommandSlot.sameSlot : CommandSlot → CommandSlot → Bool
  | .point a, .point b => a.point == b.point
  | .trip _, .trip _ => true
  | _, _ => false

/-- A frame placed in its slot: it replaces the frame waiting there in place, and otherwise joins the back (R27, R33). -/
def placeInSlot (f : CommandSlot) : List CommandSlot → List CommandSlot
  | [] => [f]
  | g :: q => if f.sameSlot g then f :: q else g :: placeInSlot f q

/-- A frame placed in the command queue; an unaddressed part's queue stays empty (R27, R186). -/
def State.placeCommandSlot (s : State) (f : CommandSlot) : State :=
  if s.addressed then s.mapRing fun r => { r with commands := placeInSlot f r.commands }.arbitrate else s

/-- The TRIP frame with a state and cause placed in the TRIP slot (R33, R37, R38). -/
def State.placeTrip (s : State) (set : Bool) (cause : Option TripCause) : State :=
  s.placeCommandSlot (.trip ⟨set, cause⟩)

/-- A response placed at the back of the response queue (R192). -/
def State.placeResponse (s : State) (f : Response) : State :=
  s.mapRing fun r => { r with responses := r.responses ++ [f] }.arbitrate

/-- A SALE frame placed where the response queue has a free place; otherwise it is not sent (R180). -/
def State.placeSale (s : State) (dst : NodeAddr) (r : SaleRecord) : State :=
  if s.addressed && s.ring.hasPlace then s.placeResponse (.sale dst r) else s

/-- The deferred TRIP_RESET is answered, where there is one (R36 to R38, R191). -/
def State.answerDeferred (s : State) (res : Result) : State :=
  match s.ring.deferred with
  | none => s
  | some d =>
    (s.mapRing fun r => { r with deferred := none }).placeResponse (.mresp d.dst d.tag 33 res false .none)

/-- The frame under transmission ends and the arbiter takes the next one (R189). -/
def State.transmitted (s : State) : State := s.mapRing fun r => { r with sending := none }.arbitrate

/-! ## Frames as words (section 12.10) -/

/-- Words 0 to 2 of a frame: destination and source, kind and tag, length. -/
def frameHead (h : Header) (kind : BitVec 8) (len : Nat) : List Word :=
  [h.dst ++ h.src, kind ++ h.tag, BitVec.ofNat 16 len]

/-- One bit into the 16-bit cyclic check, polynomial x^16 + x^12 + x^5 + 1. -/
def checkBit (crc : Word) (b : Bool) : Word :=
  if crc.msb != b then (crc <<< 1) ^^^ 0x1021 else crc <<< 1

/-- One word into the cyclic check, most significant bit first (PRESUMED, notes/assumptions/9.md). -/
def checkWord (crc w : Word) : Word :=
  [15, 14, 13, 12, 11, 10, 9, 8, 7, 6, 5, 4, 3, 2, 1, 0].foldl (fun c i => checkBit c (w.getLsbD i)) crc

/-- The frame check over header and payload words, starting value FFFF hex. -/
def frameCheck (ws : List Word) : Word := ws.foldl checkWord 0xFFFF

/-- A frame as it stands on the ring, frame check last. -/
def Frame.words (f : Frame) : List Word :=
  let ws := frameHead f.hdr f.kind f.payload.length ++ f.payload
  ws ++ [frameCheck ws]

/-- The words of an arrival are bad: the frame check fails, or the length word is above 64 or does not match the
number of payload words (R187). -/
def badWords (ws : List Word) : Bool :=
  ws.length < 4 || 64 < (ws.getD 2 0).toNat || ((ws.getD 2 0).toNat + 4 != ws.length) ||
    (ws.getLastD 0 != frameCheck ws.dropLast)

/-- A 32-bit field as two words, high word first. -/
def wordsOf32 (v : Nat) : List Word := [BitVec.ofNat 16 (v / 65536), BitVec.ofNat 16 v]

/-- The part's COMMAND frame as a frame, its tag byte 0 (R27, section 12.10; the tag is a DESIGN CHOICE,
notes/assumptions/32.md). -/
def CommandFrame.frame (strap : NodeAddr) (f : CommandFrame) : Frame :=
  ⟨⟨f.dst, strap, 0⟩, 3, [BitVec.ofNat 16 f.channel, BitVec.ofInt 16 f.value]⟩

/-- Cause and detail words of a TRIP frame; the detail word is 0 where the cause has none, LINE and REQUEST (R33,
section 12.10; DESIGN CHOICE, notes/assumptions/33.md). -/
def TripCause.words : TripCause → List Word
  | .line => [0, 0]
  | .detector i => [1, BitVec.ofNat 16 i]
  | .reaction p c => [2, BitVec.ofNat 16 (p.val * 256 + c.code)]
  | .request => [3, 0]

/-- The part's TRIP frame as a frame, addressed to all nodes, with tag byte 0, and with cause and detail words 0 and 0 in
state CLEAR, where no cause is held (R33, R37, section 12.10; DESIGN CHOICE, notes/assumptions/32.md and 33.md). -/
def TripFrame.frame (strap : NodeAddr) (f : TripFrame) : Frame :=
  ⟨⟨255, strap, 0⟩, 12, (if f.set then 1 else 0) :: (f.cause.map TripCause.words).getD [0, 0]⟩

/-- Marks word of a sale (section 12.10). -/
def Marks.word (m : Marks) : Word :=
  BitVec.ofNat 16 ((if m.meterSuspect then 1 else 0) + (if m.degradedPressure then 2 else 0) +
    (if m.linkLost then 4 else 0) + (if m.clamped then 8 else 0))

/-- End reason code (section 12.10). -/
def EndReason.code : EndReason → Nat
  | .full => 1
  | .preset => 2
  | .initialPressure => 3
  | .noPressure => 4
  | .supplyExhausted => 5
  | .holdExpired => 6
  | .vehicleAbort => 7
  | .linkLostEnd => 8
  | .stopRequest => 9
  | .condition => 10
  | .halt => 11
  | .trip => 12
  | .reset => 13
  | .restart => 14
  | .powerLoss => 15
  | .expired => 16
  | .cancelled => 17
  | .noSupply => 18

/-- Result code (section 12.10). -/
def Result.code : Result → Nat
  | .ok => 0
  | .busy => 1
  | .arg => 2
  | .notFound => 3
  | .inUse => 4
  | .incomplete => 5
  | .invalidTable => 6
  | .notQuiet => 7
  | .tripActive => 8
  | .tripSourceActive => 9
  | .notSupervisor => 10
  | .noTable => 11
  | .notTerminal => 12
  | .outOfService => 13
  | .noTime => 14
  | .logFull => 15
  | .contract => 16
  | .presetLow => 17
  | .allowance => 18

/-- Payload words of a SALE frame (R180, section 12.10). -/
def SaleRecord.saleWords (r : SaleRecord) : List Word :=
  wordsOf32 r.number ++ [BitVec.ofNat 16 r.position.val] ++ wordsOf32 r.reference.toNat ++
    [BitVec.ofNat 16 ((r.reason.map EndReason.code).getD 0)] ++ wordsOf32 r.gross ++
    wordsOf32 ((r.vent.map VentMass.grams).getD 0) ++ wordsOf32 r.net ++ wordsOf32 r.billed ++ wordsOf32 r.overrun ++
    wordsOf32 r.price ++ wordsOf32 r.amount ++ [r.marks.word]

/-- Payload words of a PAY_RESULT frame (R172, R174, section 12.10).  The reservation words of a RETAIL sale, which has no
reservation, are 0 (DESIGN CHOICE, notes/assumptions/43.md). -/
def payResultWords (request position : Word) (reference : BitVec 32) (res : Result) (clamped : Bool)
    (g : Option Grant) : List Word :=
  [request, position] ++ wordsOf32 reference.toNat ++ [BitVec.ofNat 16 res.code, if clamped then 8 else 0] ++
    match g with
    | none => []
    | some g => wordsOf32 g.number ++ wordsOf32 g.effective ++ wordsOf32 g.price ++ wordsOf32 (g.reservation.getD 0)

/-- Leading payload words of an MRESP: request code, result code and marks; the layout of its content is not given
(section 12.10). -/
def mrespWords (code : Word) (res : Result) (clamped : Bool) : List Word :=
  [code, BitVec.ofNat 16 res.code, if clamped then 8 else 0]

end Sys2Proof.Machine
end

