-- ==== Sys2Proof/Machine/Flags.lean ====
section
/-! DEFINITION. The event unit: the 46 event flags, their notices and the enable mask (R194 to R196). -/

namespace Sys2Proof.Machine

/-- Event code 1 to 14 (section 12.5). -/
def EventKind.code : EventKind → Nat
  | .trip => 1
  | .halted => 2
  | .compressorFault => 3
  | .retentionLost => 4
  | .condition => 5
  | .capacityReduced => 6
  | .bankCritical => 7
  | .logNearFull => 8
  | .linkLost => 9
  | .authExpired => 10
  | .saleClosed => 11
  | .tableActivated => 12
  | .commandBlocked => 13
  | .ringDrop => 14

/-- The scopes of an event kind in priority order: station first, then by index (R196, section 12.5). -/
def EventKind.scopes : EventKind → List EventScope
  | .halted | .linkLost | .authExpired | .saleClosed => sixIndices.map .position
  | .compressorFault => twoIndices.map .compressor
  | .bankCritical => sixIndices.map .bank
  | .condition => .station :: sixIndices.map .position
  | _ => [.station]

/-- The event kinds in code order. -/
def eventKinds : List EventKind :=
  [.trip, .halted, .compressorFault, .retentionLost, .condition, .capacityReduced, .bankCritical, .logNearFull, .linkLost,
    .authExpired, .saleClosed, .tableActivated, .commandBlocked, .ringDrop]

/-- The 46 flags in priority order (R194, R196). -/
def flagKeys : List (EventKind × EventScope) := eventKinds.flatMap fun k => k.scopes.map fun sc => (k, sc)

/-- Place of the first flag of a kind in the list of flags. -/
def EventKind.base : EventKind → Nat
  | .trip => 0
  | .halted => 1
  | .compressorFault => 7
  | .retentionLost => 9
  | .condition => 10
  | .capacityReduced => 17
  | .bankCritical => 18
  | .logNearFull => 24
  | .linkLost => 25
  | .authExpired => 31
  | .saleClosed => 37
  | .tableActivated => 43
  | .commandBlocked => 44
  | .ringDrop => 45

/-- Place of a scope within its kind's flags. -/
def EventScope.offset (k : EventKind) : EventScope → Nat
  | .station => 0
  | .position p => if k = .condition then p.val + 1 else p.val
  | .compressor c => c.val
  | .bank b => b.val

/-- Place of a flag in the list of flags. -/
def flagIndex (k : EventKind) (sc : EventScope) : Nat := k.base + sc.offset k

/-- A kind's bit of an enable mask: bit k-1 for event code k (DESIGN CHOICE, notes/assumptions/10.md). -/
def maskHas (mask : Nat) (k : EventKind) : Bool := mask.testBit (k.code - 1)

/-- The supervisor address of the ACTIVE SITE slot, or 255 while there is none (R195). -/
def State.noticeDst (s : State) : NodeAddr :=
  match s.station with
  | some t => BitVec.ofNat 8 t.supervisor
  | none => 255

/-- A NOTICE placed in the notice queue where it holds fewer than 16; an unaddressed part's queue stays empty
(R186, R195). -/
def State.placeNotice (s : State) (n : Notice) : State :=
  if s.addressed && s.ring.notices.length < Config.noticePlaces then
    s.mapRing fun r => { r with notices := r.notices ++ [n] }.arbitrate
  else s

/-- The flag of a kind and scope. -/
def State.flag (s : State) (k : EventKind) (sc : EventScope) : Option Flag := s.events.flags.getD (flagIndex k sc) none

/-- A block sets a flag with a detail (R194); a flag of an enabled kind that becomes set places a notice (R195). -/
def State.setFlag (s : State) (k : EventKind) (sc : EventScope) (d : Detail) : State :=
  match s.flag k sc with
  | some f =>
    s.mapEvents fun e =>
      { e with flags := e.flags.set (flagIndex k sc) (some ⟨d, min (f.repeats + 1) 255⟩) }
  | none =>
    let s' := s.mapEvents fun e => { e with flags := e.flags.set (flagIndex k sc) (some ⟨d, 1⟩) }
    if maskHas s.events.enable.toNat k then s'.placeNotice ⟨s.noticeDst, k, sc, d, 1⟩ else s'

/-! ## NOTICE frames as words (section 12.10; the three detail words: PRESUMED, notes/assumptions/31.md) -/

/-- Scope kind and scope index words (section 12.10). -/
def EventScope.words : EventScope → List Word
  | .station => [0, 0]
  | .position p => [1, BitVec.ofNat 16 p.val]
  | .compressor c => [2, BitVec.ofNat 16 c.val]
  | .bank b => [3, BitVec.ofNat 16 b.val]

/-- Fault causes numbered from 0 in the order of R148. -/
def FaultCause.code : FaultCause → Nat
  | .dischargeHot => 0
  | .dischargeStale => 1
  | .runLost => 2
  | .startTimeout => 3
  | .valveDiscrepancy => 4

/-- Fall-back causes numbered from 0 in the order of R117. -/
def LinkCause.code : LinkCause → Nat
  | .never => 0
  | .timeout => 1
  | .fault => 2
  | .disagree => 3

/-- Table kinds numbered from 0 (section 12.10). -/
def TableKind.code : TableKind → Nat
  | .gas => 0
  | .protocol => 1
  | .tariff => 2
  | .site => 3

/-- The detail of a raise in one word; 0 where it has no number (R102).  Of a meter's delta and status the word is the delta,
0 where there is none; the status, and the stale and not-ready details, have no word (DESIGN CHOICE,
notes/assumptions/31.md). -/
def RaiseDetail.word : RaiseDetail → Word
  | .point i => BitVec.ofNat 16 i
  | .fall v => BitVec.ofInt 16 v
  | .count n => BitVec.ofNat 16 n
  | .value v => BitVec.ofInt 16 v
  | .meter d _ => BitVec.ofNat 16 (d.getD 0)
  | _ => 0

/-- The three detail words of a NOTICE, in the order of the Detail column of section 12.5; unused words are 0, and so is
the condition code of a position halted by the trip. -/
def Detail.words : Detail → List Word
  | .none | .haltedByTrip => [0, 0, 0]
  | .tripCause c => c.words ++ [0]
  | .haltedBy c => [BitVec.ofNat 16 c.code, 0, 0]
  | .fault c => [BitVec.ofNat 16 c.code, 0, 0]
  | .raise c d r => [BitVec.ofNat 16 c.code, d.word, BitVec.ofNat 16 r.rank]
  | .stationWatch c i => [BitVec.ofNat 16 c.code, BitVec.ofNat 16 i, 0]
  | .capacity now before after => [BitVec.ofNat 16 now, BitVec.ofNat 16 before, BitVec.ofNat 16 after]
  | .freeCount n | .drops n => [BitVec.ofNat 16 n, 0, 0]
  | .linkCause c => [BitVec.ofNat 16 c.code, 0, 0]
  | .sale n => wordsOf32 n ++ [0]
  | .activated k slot g => [BitVec.ofNat 16 k.code, if slot = .a then 0 else 1, g]
  | .point i => [BitVec.ofNat 16 i, 0, 0]

/-- Payload words of a NOTICE frame (R195, section 12.10). -/
def Notice.words (n : Notice) : List Word :=
  BitVec.ofNat 16 n.kind.code :: n.scope.words ++ BitVec.ofNat 16 n.repeats :: n.detail.words

/-- A frame of the response queue as a frame; the content of an MRESP, whose layout is not given, is left out
(section 12.10).  An MRESP carries its request's tag (R191); PAY_RESULT and SALE carry tag 0 (DESIGN CHOICE,
notes/assumptions/32.md). -/
def Response.frame (strap : NodeAddr) : Response → Frame
  | .mresp dst tag code res clamped _ => ⟨⟨dst, strap, tag⟩, 9, mrespWords code res clamped⟩
  | .payResult dst req pos ref res clamped g => ⟨⟨dst, strap, 0⟩, 6, payResultWords req pos ref res clamped g⟩
  | .sale dst r => ⟨⟨dst, strap, 0⟩, 7, r.saleWords⟩

/-- What stands on the ring while a frame is sent: the part's own frames carry the strap address as source (R186, R189).
A NOTICE carries tag 0 (DESIGN CHOICE, notes/assumptions/32.md). -/
def Sending.frame (strap : NodeAddr) : Sending → Frame
  | .command f => f.frame strap
  | .trip f => f.frame strap
  | .forwarded f => f
  | .response r => r.frame strap
  | .notice n => ⟨⟨n.dst, strap, 0⟩, 10, n.words⟩

/-- The highest-priority set flag with its key and place (R196). -/
def State.firstFlag (s : State) : Option (Nat × EventKind × EventScope × Flag) :=
  (List.range 46).findSome? fun i =>
    match s.events.flags.getD i none, flagKeys[i]? with
    | some f, some (k, sc) => some (i, k, sc, f)
    | _, _ => none

/-- Every flag of every kind in a mask cleared, in all scopes (R196). -/
def clearMasked (mask : Nat) (flags : List (Option Flag)) : List (Option Flag) :=
  (List.zip flagKeys flags).map fun ((k, _), f) => if maskHas mask k then none else f

/-- A mask holds no enable beyond code 14 (R195, R196). -/
def maskOk (mask : Word) : Bool := mask.toNat < 16384

/-- The ring drop count is increased, saturating, and RING_DROP is set with it (R188). -/
def State.dropFrame (s : State) : State :=
  let s := s.mapRing fun r => { r with drops := min (r.drops + 1) 65535 }
  s.setFlag .ringDrop .station (.drops s.ring.drops)

end Sys2Proof.Machine
end

