-- ==== Sys2Proof/Machine/Actuators.lean ====
section
/-! DEFINITION. The actuator side of the point unit: owners, effective values, commands, the feedback comparison
(R20 to R32, R38, R39). -/

namespace Sys2Proof.Machine

/-- The owning job claims the point (R23). -/
def State.claims (s : State) (e : PointEntry) : Bool :=
  match e.fn, e.scope with
  | .chillerSetpoint, _ => true
  | _, .position p => (s.seq p).state != .outOfService
  | _, .compressor c => (s.comp c).state != .disabled
  | _, _ => true

/-- The highest holder of a point (R23). -/
def State.ownerOf (s : State) (e : PointEntry) : Owner :=
  let halted := match e.scope with
    | .position p => (s.seq p).state == .halted
    | _ => false
  if s.latched || halted then .safe else if s.claims e then .auto else .manual

/-- The value an owner gives the point (R22). -/
def ActRecord.valueOf (r : ActRecord) (e : PointEntry) : Owner → Int
  | .safe => e.safe
  | .auto => r.auto
  | .manual => r.manual

/-- The match test (R29). -/
def State.matchTest (s : State) (e : PointEntry) (effective : Int) : Bool :=
  match e.feedback with
  | none => true
  | some j =>
    match s.live j with
    | none => false
    | some f =>
      f.isValid &&
        if e.prop then f.value - effective ≤ Config.matchBand && effective - f.value ≤ Config.matchBand
        else f.value == effective

/-- The *settled* notice, handed over by scope (R30); a position sequencer acts on one for its bank valves alone
(R90). -/
def State.settled (s : State) (i : Nat) (e : PointEntry) : State :=
  match e.scope with
  | .position p => if e.fn = .bankValve then s.emit (.settledPosition p) else s
  | .compressor c => s.emit (.settledCompressor c i)
  | _ => s

/-- The match state after a change of the effective value (R30, first two rows). -/
def State.compareEffective (s : State) (i : Nat) (e : PointEntry) (r : ActRecord) : State :=
  if s.matchTest e r.effective then
    (s.setRecord i (.actuator { r with matching := .matched, discrepancy := none })).settled i e
  else
    match r.matching with
    | .settling => s.setRecord i (.actuator r)
    | _ => s.setRecord i (.actuator { r with matching := .settling, discrepancy := some (s.after e.discTime) })

/-- The match state after a change of the feedback record (R30, third and fourth rows). -/
def State.compareFeedback (s : State) (i : Nat) (e : PointEntry) (r : ActRecord) : State :=
  if s.matchTest e r.effective then
    match r.matching with
    | .matched => s
    | _ => (s.setRecord i (.actuator { r with matching := .matched, discrepancy := none })).settled i e
  else
    match r.matching with
    | .matched => s.setRecord i (.actuator { r with matching := .settling, discrepancy := some (s.after e.discTime) })
    | _ => s

/-- The match state set afresh by the match test, with no notice (R22, R38, R39). -/
def State.freshMatch (s : State) (i : Nat) : State :=
  match s.entry i, s.act i with
  | some e, some r =>
    if s.matchTest e r.effective then s.setRecord i (.actuator { r with matching := .matched, discrepancy := none })
    else s.setRecord i (.actuator { r with matching := .settling, discrepancy := some (s.after e.discTime) })
  | _, _ => s

/-- A COMMAND frame with the effective value placed for the point, its refresh deadline restarted (R27, R28). -/
def State.placeCommand (s : State) (i : Nat) : State :=
  match s.entry i, s.act i with
  | some e, some r =>
    (s.setRecord i (.actuator { r with refresh := s.after e.refresh })).placeCommandSlot
      (.point ⟨i, BitVec.ofNat 8 e.node, e.channel, r.effective⟩)
  | _, _ => s

/-- The sales unit takes a change of a FILL_VALVE effective value (R170). -/
def State.noteFillValve (s : State) (e : PointEntry) (v : Int) : State :=
  match e.fn, e.scope with
  | .fillValve, .position p =>
    if 0 < v then
      s.mapSales fun u => { u with intake := u.intake.modify p fun n => { n with interval := .gasOpen } }
    else s
  | _, _ => s

/-- The effective value becomes `v`: a change is sent (R27), compared (R30) and told to the sales unit (R170). -/
def State.setEffective (s : State) (i : Nat) (v : Int) : State :=
  match s.entry i, s.act i with
  | some e, some r =>
    if r.effective = v then s
    else
      let s := ((s.setRecord i (.actuator { r with effective := v })).noteFillValve e v).placeCommand i
      match s.act i with
      | some r => s.compareEffective i e r
      | none => s
  | _, _ => s

/-- The owner of a point resolved again (R24). -/
def State.resolvePoint (s : State) (i : Nat) : State :=
  match s.entry i, s.act i with
  | some e, some r =>
    let o := s.ownerOf e
    let r := { r with claimed := s.claims e, owner := o }
    (s.setRecord i (.actuator r)).setEffective i (r.valueOf e o)
  | _, _ => s

/-- The points of a list resolved again (R24), in the order of the list: its users give the points in index order, and their
COMMAND frames join the queue in it (DESIGN CHOICE, notes/assumptions/5.md). -/
def State.resolvePoints (s : State) (l : List Nat) : State := l.foldl State.resolvePoint s

/-- The actuator points in index order. -/
def State.actuatorPoints (s : State) : List Nat := s.pointsWhere fun e => !e.fn.isSensor

/-- The actuator points of a scope in index order. -/
def State.actuatorsOf (s : State) (sc : EventScope) : List Nat :=
  s.pointsWhere fun e => !e.fn.isSensor && e.scope == sc

/-- What an AUTO write stores: the value clamped to the set, and 0 for a FILL_VALVE outside PULSE and RAMP (R25). -/
def State.autoStored (s : State) (e : PointEntry) (v : Int) : Int :=
  match e.fn, e.scope with
  | .fillValve, .position p =>
    if (s.seq p).state = .pulse ∨ (s.seq p).state = .ramp then e.clampAct v else 0
  | _, _ => e.clampAct v

/-- An owning job writes the AUTO value of a point (R25). -/
def State.writeAuto (s : State) (i : Nat) (v : Int) : State :=
  match s.entry i, s.act i with
  | some e, some r =>
    let v := s.autoStored e v
    let s := s.setRecord i (.actuator { r with auto := v })
    if r.owner = .auto then s.setEffective i v else s
  | _, _ => s

/-- An owning job writes open or on, or closed or off, where the table has the point (R21). -/
def State.writeOpen (s : State) (point : Option Nat) (openIt : Bool) : State :=
  match point with
  | none => s
  | some i =>
    match s.entry i with
    | none => s
    | some e => s.writeAuto i (if openIt then e.openValue else 0)

/-- The position sequencer writes its FILL_VALVE (R82, R84, R86). -/
def State.writeFill (s : State) (p : Pos) (v : Nat) : State :=
  match s.findPoint .fillValve (.position p) with
  | none => s
  | some i => s.writeAuto i v

/-- The position sequencer writes its VENT_VALVE (R94). -/
def State.writeVent (s : State) (p : Pos) (openIt : Bool) : State :=
  s.writeOpen (s.findPoint .ventValve (.position p)) openIt

/-- The bank selector writes a BANK_VALVE (R130). -/
def State.writeBankValve (s : State) (p : Pos) (b : Bank) (openIt : Bool) : State :=
  s.writeOpen (s.findValve .bankValve (.position p) b) openIt

/-- The compression scheduler writes a DISCHARGE_VALVE (R143). -/
def State.writeDischarge (s : State) (c : Comp) (b : Bank) (openIt : Bool) : State :=
  s.writeOpen (s.findValve .dischargeValve (.compressor c) b) openIt

/-- The compression scheduler writes its COMP_RUN (R143, R147). -/
def State.writeRun (s : State) (c : Comp) (on : Bool) : State :=
  s.writeOpen (s.findPoint .compRun (.compressor c)) on

/-- The manual value set by POINT_MANUAL (R26). -/
def State.setManual (s : State) (i : Nat) (v : Int) : State :=
  match s.act i with
  | none => s
  | some r =>
    let s := s.setRecord i (.actuator { r with manual := v })
    if r.owner = .manual then s.setEffective i v else s

/-- The value of a waiting command frame replaced in place (R27). -/
def replaceWaiting (i : Nat) (v : Int) (q : List CommandSlot) : List CommandSlot :=
  q.map fun f =>
    match f with
    | .point f => if f.point = i then .point { f with value := v } else .point f
    | .trip f => .trip f

/-- A ring command snooped at a MANUAL point (R27, R28, R32). -/
def State.snoopManual (s : State) (i : Nat) (e : PointEntry) (r : ActRecord) (v : Int) : State :=
  let s := s.mapRing fun g => { g with commands := replaceWaiting i v g.commands }
  let r' := { r with manual := v, effective := v, refresh := s.after e.refresh }
  if r.effective = v then s.setRecord i (.actuator r')
  else ((s.setRecord i (.actuator r')).noteFillValve e v).compareEffective i e r'

/-- Every BANK_VALVE point of the position is MATCHED (R90). -/
def State.bankValvesMatched (s : State) (p : Pos) : Bool :=
  (s.pointsWhere fun e => e.fn == .bankValve && e.scope == .position p).all fun i =>
    match s.act i with
    | some r => r.matching == .matched
    | none => true

/-- A compressor's DISCHARGE_VALVE point for a bank is MATCHED; a missing point or bank counts as MATCHED (R145). -/
def State.dischargeMatched (s : State) (c : Comp) (b : Option Bank) : Bool :=
  match b.bind fun b => s.findValve .dischargeValve (.compressor c) b with
  | none => true
  | some i =>
    match s.act i with
    | some r => r.matching == .matched
    | none => true

end Sys2Proof.Machine
end

