-- ==== Sys2Proof/Machine/Trip.lean ====
section
/-! DEFINITION. The station trip: the latch, its sources, the settle and the examination of line and detectors
(R33 to R38), and the records a SITE table starts with (R4, R22). -/

namespace Sys2Proof.Machine

/-- The station trip line is low: the part drives it in LATCHED, or another party pulls it (R33). -/
def State.lineLow (s : State) : Bool := s.points.trip == .latched || s.points.linePulled

/-- The DETECTOR points that hold ACTIVE, whatever their quality, in index order (R33). -/
def State.activeDetectors (s : State) : List Nat :=
  (s.pointsWhere fun e => e.fn == .detector).filter fun i => (s.live i).any fun r => r.value == 1

/-- The trip latch is set with a cause (R33).  The position that raised a reaction TRIP is not notified: it applies the
effect itself (R112). -/
def State.latchTrip (s : State) (cause : TripCause) (raiser : Option Pos) : State :=
  let s := s.mapPoints fun u => { u with trip := .latched, cause := some cause, settle := none }
  let s := s.resolvePoints s.actuatorPoints
  let s := s.placeTrip true (some cause)
  let s := s.setFlag .trip .station (.tripCause cause)
  let s := sixIndices.foldl (fun s p => if raiser = some p then s else s.emit (.tripSetPosition p)) s
  s.emit .tripSetCompressors

/-- A settle in progress ends with the latch still set: the drive is resumed and the pending TRIP_RESET answered
(R36, R37, R38). -/
def State.endSettle (s : State) (res : Result) : State :=
  (s.mapPoints fun u => { u with trip := .latched, settle := none }).answerDeferred res

/-- A trip source by the trip state (R33, R36). -/
def State.tripSource (s : State) (cause : TripCause) (raiser : Option Pos) : State :=
  match s.points.trip with
  | .clear => s.latchTrip cause raiser
  | .latched => s
  | .settling => s.endSettle .tripSourceActive

/-- The line and the detectors examined once in CLEAR (R34). -/
def State.examineTrip (s : State) : State :=
  if s.points.trip = .clear then
    if s.lineLow then s.latchTrip .line none
    else
      match s.activeDetectors with
      | i :: _ => s.latchTrip (.detector i) none
      | [] => s
  else s

/-- The settle timer expires (R37). -/
def State.settleExpired (s : State) : State :=
  if s.lineLow || !s.activeDetectors.isEmpty then s.endSettle .tripSourceActive
  else
    let s := s.mapPoints fun u => { u with trip := .clear, cause := none, settle := none }
    let s := s.resolvePoints s.actuatorPoints
    let s := s.placeTrip false none
    let s := s.emit .tripCleared
    let s := s.answerDeferred .ok
    s.examineTrip

/-! ## Records of a new SITE table -/

/-- A live record in its never-sampled state (R4). -/
def PointEntry.neverSampled (e : PointEntry) : LiveRecord :=
  { value := e.substitute, quality := .invalid, clamped := false, freshness := .never, deadline := none,
    watch := e.watch.map fun _ => .armed }

/-- The record a point starts with (R4, R22). -/
def State.startRecord (s : State) (i : Nat) : PointRecord :=
  match s.entry i with
  | none => .empty
  | some e =>
    if e.fn.isSensor then .sensor e.neverSampled
    else
      .actuator
        { auto := e.safe, manual := e.safe, claimed := s.claims e, owner := s.ownerOf e, effective := e.safe,
          refresh := s.after e.refresh,
          matching := if e.feedback.isSome then .settling else .matched,
          discrepancy := if e.feedback.isSome then some (s.after e.discTime) else none }

/-- A frame of the command queue is the TRIP frame. -/
def CommandSlot.isTrip : CommandSlot → Bool
  | .trip _ => true
  | .point _ => false

/-- Every actuator point's frame placed, in order of point index (R22, R38). -/
def State.placeAllCommands (s : State) : State := s.actuatorPoints.foldl State.placeCommand s

/-- The point unit takes the ACTIVE SITE table: records built afresh, the former table's frames removed and one frame
placed for each actuator (R1, R4, R22). -/
def State.buildPoints (s : State) : State :=
  let s := s.mapPoints fun u =>
    { u with records := pointIndices.map s.startRecord, pairs := Six.all Pair.start }
  let s := s.mapRing fun r => { r with commands := r.commands.filter CommandSlot.isTrip }
  s.placeAllCommands

end Sys2Proof.Machine
end

