-- ==== Sys2Proof/Machine/Sales.lean ====
section
/-! DEFINITION. The sales unit: bindings, opening, closing and freeing of sale records, contracts and the roll-over
(R65, R66, R174, R177 to R183). -/

namespace Sys2Proof.Machine

/-- A slot's bind count changed. -/
def KindStore.mapBinds (k : KindStore) (id : SlotId) (f : Nat → Nat) : KindStore :=
  k.setSlot id { k.slot id with binds := f (k.slot id).binds }

/-- The bind counts of the three slots of a bind reference changed (R65, R66). -/
def TableStore.mapBinds (t : TableStore) (b : Bind) (f : Nat → Nat) : TableStore :=
  { t with gas := t.gas.mapBinds b.gas.slot f, protocol := t.protocol.mapBinds b.protocol.slot f,
           tariff := t.tariff.mapBinds b.tariff.slot f }

/-- The ACTIVE slot of a kind with its generation. -/
def KindStore.activeRef (k : KindStore) : Option SlotRef :=
  k.activeId.map fun id => ⟨id, ((k.slot id).generation).getD 0⟩

/-- The bind reference an authorization takes: the ACTIVE slots of GAS, PROTOCOL and TARIFF (R65). -/
def TableStore.activeBind (t : TableStore) : Option Bind :=
  match t.gas.activeRef, t.protocol.activeRef, t.tariff.activeRef with
  | some g, some p, some r => some ⟨g, p, r⟩
  | _, _, _ => none

/-- A new record is bound: the three bind counts go up by 1 (R65). -/
def State.bindRecord (s : State) (b : Bind) : State := s.mapTables fun t => t.mapBinds b (· + 1)

/-- A binding is released: the three bind counts go down by 1 (R66). -/
def State.releaseBind (s : State) (b : Bind) : State := s.mapTables fun t => t.mapBinds b (· - 1)

/-- The contract with an id. -/
def State.contract (s : State) (id : Nat) : Option Contract := s.sales.contracts.find? fun c => c.id == id

/-- The contract with an id changed. -/
def State.mapContract (s : State) (id : Nat) (f : Contract → Contract) : State :=
  s.mapSales fun u => { u with contracts := u.contracts.map fun c => if c.id = id then f c else c }

/-- The station time, absent while it is not valid (R176, R197). -/
def State.stamp (s : State) : Option Stamp := if s.time.valid then some ⟨s.time.day, s.time.minute⟩ else none

/-- The terminal node of a position (R168). -/
def State.terminal (s : State) (p : Pos) : NodeAddr := BitVec.ofNat 8 (((s.posSite p).map PosSite.terminal).getD 0)

/-- The vent mass of a record's position from the standing outlet values, on the record's bound tables (R52, R53). -/
def State.ventNow (s : State) (r : SaleRecord) : VentMass :=
  ventMass (s.tables.gas.slot r.bind.gas.slot) (s.combined r.position) (s.outletT r.position)
    (((s.posSite r.position).map PosSite.hose).getD 0)
    ((s.tables.protocol.slot r.bind.protocol.slot).header r.cls).maxLimit

/-- The vent mass at the closure of a record: the one stored at VENT entry, and where none is stored, computed now (R52, R177,
R178 step 1).  So it is also where a HALT, a trip, POSITION_RESET or RESTART ends the VENT, of which R97, R100 and R114 say
that the correction is computed then: the chapter of the sales unit, which owns the record, says what it does (section 0.4;
DEDUCED, notes/assumptions/39.md). -/
def State.ventAtClosure (s : State) (r : SaleRecord) : VentMass := r.vent.getD (s.ventNow r)

/-- Amount of a billed mass at a unit price: rounded by `half`, saturated (R178 step 5); the Bool marks the
saturation. -/
def saleAmount (billed price : Nat) (half : Bool) : Nat × Bool :=
  let a := (billed * price + (if half then 5000 else 0)) / 10000
  (min a Config.amountMax, decide (Config.amountMax < a))

/-- The mass billed from the net mass (R178 step 3). -/
def SaleRecord.billedOf (r : SaleRecord) (net : Nat) : Nat :=
  match r.card with
  | .fleet => min net (r.reservation.getD 0)
  | .retail => if r.preset = .amount then min net r.effective else net

/-- The record settled: net, billed, overrun, amount and marks (R178 steps 2 to 7). -/
def SaleRecord.settle (r : SaleRecord) (vent : VentMass) (half : Bool) (reason : EndReason) (cond : Option Condition)
    (cat : Option Category) (finish : Option Stamp) : SaleRecord :=
  let net := r.gross - vent.grams
  let billed := r.billedOf net
  let (amount, sat) := saleAmount billed r.price half
  { r with
    state := .closed, reason := some reason, reasonCond := cond, finalCat := cat, finish := finish, vent := some vent,
    net := net, billed := billed, overrun := net - billed, amount := amount,
    marks :=
      { r.marks with
        clamped := r.marks.clamped || sat || vent.clamped,
        degradedPressure := r.marks.degradedPressure || vent.quality != .good } }

/-- The contract of a fleet sale after its closure (R178 step 8). -/
def Contract.charge (c : Contract) (billed reservation : Nat) : Contract :=
  { c with remaining := c.remaining - billed, reserved := c.reserved - reservation, salesToday := c.salesToday + 1 }

/-- The OPEN record of a position is closed (R178): settled, put on the closure list, unbound, charged to its contract,
sent and reported. -/
def State.closeRecord (s : State) (p : Pos) (reason : EndReason) (cond : Option Condition) : State :=
  match s.recordSlot p, s.saleOf p with
  | some i, some r =>
    let vent := s.ventAtClosure r
    let half := (s.tables.tariff.slot r.bind.tariff.slot).rounding == 0
    let r := r.settle vent half reason cond (s.seq p).category s.stamp
    let r := { r with notified := s.addressed && s.ring.hasPlace && s.site.isSome }
    let s := (s.setLog i (some r)).mapSales fun u => { u with closure := u.closure ++ [i] }
    let s := s.releaseBind r.bind
    let s := match r.contract with
      | some id => s.mapContract id fun c => c.charge r.billed (r.reservation.getD 0)
      | none => s
    let s := if r.notified then s.placeSale (s.terminal p) r else s
    s.setFlag .saleClosed (.position p) (.sale r.number)
  | _, _ => s

/-- The RESERVED record of a position is freed with a reason (R179); at a power-up no SALE frame is sent (R185). -/
def State.freeRecord (s : State) (p : Pos) (reason : EndReason) (send : Bool) : State :=
  match s.recordSlot p, s.saleOf p with
  | some i, some r =>
    let r := { r with reason := some reason, finish := s.stamp }
    let s := match r.contract with
      | some id => s.mapContract id fun c => { c with reserved := c.reserved - r.reservation.getD 0 }
      | none => s
    let s := (s.releaseBind r.bind).setLog i none
    if send then s.placeSale (s.terminal p) r else s
  | _, _ => s

/-- The position's record leaves RESERVED or OPEN: an OPEN one is closed, a RESERVED one freed (R97, R100, R112). -/
def State.endRecord (s : State) (p : Pos) (reason : EndReason) (cond : Option Condition) : State :=
  match s.saleOf p with
  | some r => if r.state = .opened then s.closeRecord p reason cond else s.freeRecord p reason true
  | none => s

/-- The intake of a position cannot count a fill (R171). -/
def State.intakeNotReady (s : State) (p : Pos) : Bool :=
  let n := s.sales.intake.get p
  ((s.posSite p).map PosSite.meter).getD 0 == 0 || n.freshness != .fresh || !n.healthy || n.baseline.isNone

/-- The record of a position becomes OPEN (R177); an intake that is not ready marks it METER_SUSPECT (R171). -/
def State.openRecord (s : State) (p : Pos) : State :=
  s.mapSale p fun r =>
    { r with state := .opened, startCat := (s.seq p).category, gross := 0,
             marks := { r.marks with meterSuspect := r.marks.meterSuspect || s.intakeNotReady p } }

/-- The record of a position is marked METER_SUSPECT while it is OPEN (R169, R171). -/
def State.markSuspect (s : State) (p : Pos) : State :=
  s.mapSale p fun r => if r.state = .opened then { r with marks := { r.marks with meterSuspect := true } } else r

/-- A contract at a roll-over (R183). -/
def Contract.renew (c : Contract) : Contract := { c with remaining := max c.quota c.reserved, salesToday := 0 }

/-- The sales unit takes a station day: a day greater than the contract day makes a roll-over (R183). -/
def State.takeDay (s : State) (day : Nat) : State :=
  if s.sales.contractDay < day then
    s.mapSales fun u => { u with contracts := u.contracts.map Contract.renew, contractDay := day }
  else s

end Sys2Proof.Machine
end

