-- ==== Sys2Proof/Machine/Draw.lean ====
section
/-! DEFINITION. The bank selector's draws: suitability, the choice, claims, waits and withdrawals (R127 to R133). -/

namespace Sys2Proof.Machine

/-- A bank is routed to a position by a BANK_VALVE entry (R127). -/
def State.routed (s : State) (p : Pos) (b : Bank) : Bool := (s.findValve .bankValve (.position p) b).isSome

/-- The reference pressure of a position at a choice (R128). -/
def State.reference (s : State) (p : Pos) : Int :=
  if (s.seq p).state = .admitting then
    match (s.seq p).link.bind LinkState.pressure with
    | some v => if v.valid then v.num else 0
    | none => 0
  else ((s.seq p).lastValidP.map Value.num).getD 0

/-- A bank suits a position at a reference pressure (R128). -/
def State.suits (s : State) (p : Pos) (b : Bank) (ref : Int) : Bool :=
  (s.bank b).state == .available && s.routed p b && ref + (s.header p).switchDiff ≤ (s.bank b).pressure.num

/-- Drawers of a bank (R126). -/
def BankLive.drawerCount (b : BankLive) : Nat := b.drawers.toList.countP id

/-- A bank has fewer drawers than draw ports (R129). -/
def State.hasPort (s : State) (b : Bank) : Bool := (s.bank b).drawerCount < (s.bankSite b).drawPorts

/-- A bank offers a port to a choice: one is free and nobody waits for it.  A port that has just been freed goes to the waiters
first, so that a choice made before they are served finds the bank full (R134). -/
def State.offersPort (s : State) (b : Bank) : Bool := s.hasPort b && (s.bank b).queue.isEmpty

/-- Outcome of a choice (R129). -/
inductive Choice where
  | claim (b : Bank) (index : Nat)
  | wait (b : Bank) (index : Nat)
  | exhausted
  deriving DecidableEq, Repr

/-- The places of a class sequence from `k` on, with their indices (R129). -/
def placesFrom (l : List Bank) (k : Nat) : List (Bank × Nat) := (l.zipIdx).drop k

/-- The choice for a position from place `k` at a reference pressure (R129). -/
def State.choose (s : State) (p : Pos) (k : Nat) (ref : Int) : Choice :=
  let suitable := (placesFrom (s.sequence (s.cls p)) k).filter fun (b, _) => s.suits p b ref
  match suitable.find? fun (b, _) => s.offersPort b with
  | some (b, i) => .claim b i
  | none =>
    match suitable with
    | (b, i) :: _ => .wait b i
    | [] => .exhausted

/-- A position claims a draw port (R130). -/
def State.claimBank (s : State) (p : Pos) (b : Bank) (index : Nat) : State :=
  let s := s.mapBank b fun l => { l with drawers := l.drawers.set p true }
  let s := s.setDraw p ⟨some b, none, some index⟩
  s.writeBankValve p b true

/-- A position's drawer place at a bank is given up, its valve written closed, and the freed port handed to the bank's
waiters (R130, R134). -/
def State.leavePort (s : State) (p : Pos) (b : Bank) : State :=
  let s := s.mapBank b fun l => { l with drawers := l.drawers.set p false }
  let s := s.writeBankValve p b false
  s.emit (.port b)

/-- A position joins the back of a bank's wait queue (R129). -/
def State.joinWait (s : State) (p : Pos) (b : Bank) (index : Nat) : State :=
  let s := s.mapBank b fun l => { l with queue := l.queue ++ [p] }
  s.setDraw p ⟨none, some b, some index⟩

/-- A withdraw request: claim released, or queue place removed; the draw record is then empty (R133). -/
def State.withdraw (s : State) (p : Pos) : State :=
  match s.draw p with
  | ⟨some b, _, _⟩ => (s.setDraw p Draw.empty).leavePort p b
  | ⟨none, some b, _⟩ =>
    (s.mapBank b fun l => { l with queue := l.queue.filter fun q => q != p }).setDraw p Draw.empty
  | ⟨none, none, _⟩ => s.setDraw p Draw.empty

/-- The claimed bank still suits the position at the named pressure (R132). -/
def State.stillSuits (s : State) (p : Pos) (named : Int) : Bool :=
  match (s.draw p).claim with
  | none => true
  | some b =>
    let l := s.bank b
    let pressure := if l.state = .available then l.pressure.num else 0
    l.state == .available && (s.header p).switchDiff ≤ pressure - named

/-- Answer of a bank check or switch test to the sequencer (R132). -/
inductive SwitchAnswer where
  | suits
  | newClaim
  | wait
  | exhausted
  deriving DecidableEq, Repr

/-- The check at RAMP entry and the switch test, with the old claim handled by the outcome (R132).  At a new claim the old
bank's valve is written closed before the new one's is written open, whatever their point indices: the order in which R132
and R90 name them (DESIGN CHOICE, notes/assumptions/5.md). -/
def State.switchTest (s : State) (p : Pos) (named : Int) : SwitchAnswer × State :=
  if s.stillSuits p named then (.suits, s)
  else
    match s.choose p ((s.draw p).index.getD 0 + 1) named with
    | .exhausted => (.exhausted, s)
    | .claim b i =>
      let s := match (s.draw p).claim with
        | some old => s.leavePort p old
        | none => s
      (.newClaim, s.claimBank p b i)
    | .wait b i =>
      let s := match (s.draw p).claim with
        | some old => s.leavePort p old
        | none => s
      (.wait, s.joinWait p b i)

end Sys2Proof.Machine
end

