-- ==== Sys2Proof/Machine/Cooling.lean ====
section
/-! DEFINITION. The cooling allocator's table, wait queue, setpoint and outlet monitors, as the other blocks reach them
(R155 to R157, R161, R163, R165). -/

namespace Sys2Proof.Machine

/-- The held sum (R155). -/
def Cooling.heldSum (c : Cooling) : Nat := (c.table.map Alloc.amount).sum

/-- A demand is at most the free capacity (R155, R158). -/
def Cooling.fits (c : Cooling) (demand : Nat) : Bool := c.heldSum + demand ≤ c.capacity

/-- The entry of a holder (R155). -/
def Cooling.allocOf (c : Cooling) (h : Holder) : Option Alloc := c.table.find? fun a => a.holder == h

/-- The holder of a request. -/
def CoolRequest.holder : CoolRequest → Holder
  | .position p _ _ => .position p
  | .compressor c _ _ => .compressor c

/-- Part of the queue a request stands in, in service order (R156). -/
def CoolRequest.part : CoolRequest → Nat
  | .compressor _ _ true => 1
  | .position _ _ _ => 2
  | .compressor _ _ false => 3

/-- A request joins the back of its part of the queue (R156, R157). -/
def joinPart (r : CoolRequest) : List CoolRequest → List CoolRequest
  | [] => [r]
  | q :: l => if r.part < q.part then r :: q :: l else q :: joinPart r l

/-! ### Items and their passes (R157) -/

/-- A service pass is under way: an item that one of its grants causes is served by the rest of it. -/
def State.serving (s : State) : Bool := s.handOvers.head? == some .serving

/-- A hand-over that ends with a service pass. -/
def HandOver.endsWithPass : HandOver → Bool
  | .service | .release _ | .request _ => true
  | _ => false

/-- An earlier item's service pass is still to be made, so that a later item has to wait for it (R157). -/
def State.passDue (s : State) : Bool := !s.serving && s.handOvers.any HandOver.endsWithPass

/-- An item has been taken; its service pass follows (R157). -/
def State.endItem (s : State) : State := if s.serving then s else s.emit .service

/-- A request placed in the queue, in place of one its holder has there (R156, R157). -/
def State.placeRequest (s : State) (r : CoolRequest) : State :=
  s.mapCool fun c => { c with queue := joinPart r (c.queue.filter fun q => q.holder != r.holder) }

/-- An entry removed from the table. -/
def State.removeEntry (s : State) (h : Holder) : State :=
  s.mapCool fun c => { c with table := c.table.filter fun a => a.holder != h }

/-- A request, new or restated, is taken, behind the pass of an earlier item (R157). -/
def State.requestCooling (s : State) (r : CoolRequest) : State :=
  if s.passDue then s.emit (.request r) else (s.placeRequest r).endItem

/-- A holder's withdrawal and release: its request leaves the queue, and its entry the table behind the pass of an earlier
item (R157).  A withdrawal is taken ahead of that pass, so that nothing is granted to a holder that has left; R159 gives
either order. -/
def State.leaveCooling (s : State) (h : Holder) : State :=
  let s := s.mapCool fun c => { c with queue := c.queue.filter fun r => r.holder != h }
  if s.passDue then (if (s.cool.allocOf h).isSome then s.emit (.release h) else s) else (s.removeEntry h).endItem

/-- The holder is in the state in which it asks for cooling (R79, R142). -/
def State.asksCooling (s : State) : Holder → Bool
  | .position p => (s.seq p).state == .admitting
  | .compressor c => (s.comp c).state == .coolWait

/-- An entry of the table changed (R155). -/
def State.mapAlloc (s : State) (h : Holder) (f : Alloc → Alloc) : State :=
  s.mapCool fun c => { c with table := c.table.map fun a => if a.holder = h then f a else a }

/-- The critical mark of a compressor's entry as handed over by the scheduler (R146). -/
def State.setAllocCritical (s : State) (c : Comp) (critical : Bool) : State :=
  s.mapAlloc (.compressor c) fun a => { a with critical := critical }

/-- The categories warmer than one, coldest first (R161). -/
def Category.warmer (c : Category) : List Category := allCategories.filter fun d => c.index < d.index

/-- The downgrade category of a position's entry (R161). -/
def State.downgradeCategory (s : State) (p : Pos) (a : Alloc) : Option Category :=
  match a.fill with
  | none => none
  | some f =>
    f.category.warmer.find? fun d =>
      (s.combinationAt p f.band.val d).aprr != 0 && (s.combinationAt p f.band.val d).demand ≤ a.amount

/-- The chiller setpoint base scan: positions in PULSE, RAMP, SWITCH or HOLD with their category's limit (R17, R165). -/
def State.setpointBase (s : State) (t : Slot) : Option Scan :=
  laneScan false <| sixIndices.filterMap fun p =>
    match (s.seq p).category with
    | some c => if (s.seq p).state.flowing then some (p, ⟨t.categoryLimit c, .good, false⟩) else none
    | none => none

/-- The setpoint and whether it comes from the scan (R165). -/
def State.setpoint (s : State) (site : StationSite) : Int × Bool :=
  match s.protocol with
  | none => (site.idleSet, false)
  | some t =>
    match s.setpointBase t with
    | some b => (b.value.num - t.margin, true)
    | none => (site.idleSet, false)

/-- The chiller setpoint recomputed and written (R165). -/
def State.recomputeSetpoint (s : State) : State :=
  match s.station with
  | none => s
  | some site =>
    let (v, scan) := s.setpoint site
    let s := s.mapCool fun c => { c with fromScan := scan }
    match s.findPoint .chillerSetpoint .station with
    | some i => s.writeAuto i v
    | none => s

/-- Both monitor timers stopped: the position leaves RAMP (R163). -/
def State.stopMonitor (s : State) (p : Pos) : State := s.mapMonitor p fun m => { m with settle := none, grace := none }

/-- The settle timer started at the category settle time (R163). -/
def State.startSettle (s : State) (p : Pos) : State :=
  let d := s.after (s.header p).catSettle
  s.mapMonitor p fun m => { m with settle := some d }

/-- A category change of a position in the monitor: the grace timer stops, and the settle restarts in RAMP (R163). -/
def State.monitorCategory (s : State) (p : Pos) : State :=
  let s := s.mapMonitor p fun m => { m with grace := none }
  if (s.seq p).state = .ramp then s.startSettle p else s

end Sys2Proof.Machine
end

