-- ==== Sys2Proof/Machine/Sequencer.lean ====
section
/-! DEFINITION. The position sequencer: states, cancel, END, VENT, HALTED, hold causes, reactions, admission, pulse and
ramp (chapters 5 and 6). -/

namespace Sys2Proof.Machine

/-! ## Changes of state -/

/-- A position's change of state with its notifications, as R75 lists them: the owners of its points (R24), the fill valve's
AUTO value outside PULSE and RAMP, stored where SAFE or MANUAL has just taken the point (R25, R97), its outlet monitor (R163)
and the chiller setpoint (R165). -/
def State.setPosState (s : State) (p : Pos) (t : PosState) : State :=
  let old := (s.seq p).state
  let s := s.mapSeq p fun q => { q with state := t }
  let special := fun (u : PosState) => u == .halted || u == .outOfService
  let s := if old ≠ t ∧ (special old || special t) then s.resolvePoints (s.actuatorsOf (.position p)) else s
  let s := if t = .pulse ∨ t = .ramp then s else s.writeFill p 0
  let s := if old = .ramp ∧ t ≠ .ramp then s.stopMonitor p
    else if t = .ramp ∧ old ≠ .ramp then s.startSettle p else s
  s.recomputeSetpoint

/-- The fill items cleared and every timer stopped; state, last pressures, active levels and test outcome stay
(R73, R78, R97, R100). -/
def Seq.cleared (q : Seq) : Seq :=
  { Seq.start with
    state := q.state, lastP := q.lastP, lastValidP := q.lastValidP, active := q.active, overTest := q.overTest }

/-- DONE is entered, and IDLE at once on a valid HOLSTERED (R95). -/
def State.enterDone (s : State) (p : Pos) : State :=
  let s := s.setPosState p .done
  if s.nozzleIs p 0 then s.setPosState p .idle else s

/-- Every grant and queue place of the position given up (R78 steps 2 and 3). -/
def State.leaveAll (s : State) (p : Pos) : State := (s.leaveCooling (.position p)).withdraw p

/-- A fill in AUTHORIZED or ADMIT is cancelled with a reason (R78). -/
def State.cancelFill (s : State) (p : Pos) (reason : EndReason) : State :=
  let old := (s.seq p).state
  let s := ((s.freeRecord p reason true).leaveAll p).mapSeq p Seq.cleared
  if old = .authorized then s.setPosState p .idle else s.enterDone p

/-- The vent is done or has timed out: valve closed, record closed with the recorded reason, DONE (R94). -/
def State.finishVent (s : State) (p : Pos) : State :=
  let q := s.seq p
  let s := s.writeVent p false
  let s := s.mapSeq p fun q => { q with ventTimer := none }
  let s := s.closeRecord p (q.endReason.getD .condition) q.endCond
  (s.mapSeq p Seq.cleared).enterDone p

/-- The vent-done test on a combined outlet pressure (R94). -/
def State.ventTest (s : State) (p : Pos) (v : Value) : State :=
  if (s.seq p).state = .vent ∧ v.valid ∧ v.num < (s.header p).ventDone then s.finishVent p else s

/-- VENT is entered (R94). -/
def State.enterVent (s : State) (p : Pos) : State :=
  let s := (s.setPosState p .vent).writeVent p true
  let s := s.mapSale p fun r => { r with vent := some (s.ventNow r) }
  let d := s.after (s.header p).ventTimeout
  let s := s.mapSeq p fun q => { q with ventTimer := some d }
  s.ventTest p (s.combined p)

/-- A flowing fill ENDs with a reason; in any other state an END has no effect here (R93). -/
def State.endFill (s : State) (p : Pos) (reason : EndReason) (cond : Option Condition) : State :=
  if (s.seq p).state.flowing then
    let s := s.mapSeq p fun q =>
      { q with endReason := some reason, endCond := cond, pulse := none, holdLimit := none, causes := HoldCauses.empty,
               window := [], resume := none }
    (s.leaveAll p).enterVent p
  else s

/-- HALTED is entered: record ended, fill items cleared, grants given up, flag set (R97, R194).  The points pass to SAFE before
the bank valve is written closed, so that this AUTO value is stored until HALTED is left (R23, R97).  SALE_CLOSED is set
before HALTED (DESIGN CHOICE, notes/assumptions/51.md). -/
def State.haltPosition (s : State) (p : Pos) (reason : EndReason) (cond : Option Condition) (detail : Detail) : State :=
  let s := (s.endRecord p reason cond).mapSeq p Seq.cleared
  ((s.setPosState p .halted).leaveAll p).setFlag .halted (.position p) detail

/-- The station trip at a position (R114). -/
def State.tripEffect (s : State) (p : Pos) : State :=
  match (s.seq p).state with
  | .idle | .outOfService | .halted => s
  | .authorized | .admitting => s.cancelFill p .trip
  | _ => s.haltPosition p .trip none .haltedByTrip

/-! ## Hold causes -/

/-- A hold cause is added (R91, R82). -/
def State.addCause (s : State) (p : Pos) (c : Cause) : State :=
  let d := s.after (s.header p).holdLimit
  match (s.seq p).state with
  | .pulse =>
    (s.mapSeq p fun q =>
      { q with pulse := none, resume := some .pulse, causes := q.causes.put c true, holdLimit := some d }).setPosState p .hold
  | .ramp =>
    (s.mapSeq p fun q =>
      { q with resume := some .ramp, causes := q.causes.put c true, holdLimit := some d }).setPosState p .hold
  | .switch | .hold => s.mapSeq p fun q => { q with causes := q.causes.put c true }
  | _ => s

/-- The ramp is re-based at the last target (R49, R85). -/
def State.rebase (s : State) (p : Pos) : State :=
  s.mapSeq p fun q => { q with rampBase := q.target.map Target.target, rampMark := s.now, window := [] }

/-- The pulse begins with its open phase (R82).  The Ps and P0 of a pulse that a HOLD has cut short become absent here, and
come back when the new pulse records them (R73; DESIGN CHOICE, notes/assumptions/46.md). -/
def State.beginPulse (s : State) (p : Pos) : State :=
  let h := s.header p
  let s := s.writeFill p h.pulseOpening
  s.mapSeq p fun q =>
    { q with pulse := some (s.after h.pulseOpen), phase := .opening, settleP := none, initialP := none }

/-- The resume state is entered and the hold-limit timer stopped (R90, R92). -/
def State.enterResume (s : State) (p : Pos) : State :=
  let r := (s.seq p).resume
  let s := s.mapSeq p fun q => { q with holdLimit := none, resume := none }
  match r with
  | some .pulse => (s.setPosState p .pulse).beginPulse p
  | _ =>
    let s := (s.rebase p).setPosState p .ramp
    s.writeFill p (s.seq p).opening

/-- Hold causes empty in HOLD: the fill resumes, through SWITCH while a bank valve is not MATCHED (R92). -/
def State.settleHold (s : State) (p : Pos) : State :=
  if (s.seq p).state = .hold ∧ (s.seq p).causes.isEmpty then
    if s.bankValvesMatched p then s.enterResume p else s.setPosState p .switch
  else s

/-- A hold cause is removed (R91, R92). -/
def State.removeCause (s : State) (p : Pos) (c : Cause) : State :=
  if (s.seq p).causes.has c then
    (s.mapSeq p fun q => { q with causes := q.causes.put c false }).settleHold p
  else s

/-- SWITCH completes when every bank valve is MATCHED (R90). -/
def State.completeSwitch (s : State) (p : Pos) : State :=
  if (s.seq p).state = .switch ∧ s.bankValvesMatched p then
    if (s.seq p).causes.isEmpty then s.enterResume p else s.setPosState p .hold
  else s

/-- SWITCH is entered from RAMP on a new claim (R90). -/
def State.enterSwitch (s : State) (p : Pos) : State :=
  let d := s.after (s.header p).holdLimit
  let s := s.mapSeq p fun q => { q with resume := some .ramp, holdLimit := some d }
  (s.setPosState p .switch).completeSwitch p

/-! ## Reactions -/

/-- Index of a cell of the reaction table (R108). -/
def cellIndex (c : Condition) (k : StateClass) : Nat := 4 * (c.code - 1) + k.code

/-- The present reaction of a cell (R108). -/
def State.reactionOf (s : State) (c : Condition) (k : StateClass) : Reaction :=
  s.reactions.getD (cellIndex c k) .note

/-- The floors of the 52 cells, in the order of the reaction table (R108). -/
def reactionFloors : List Reaction :=
  [.note, .finish, .halt, .halt,
   .note, .note, .finish, .note,
   .note, .note, .note, .note,
   .note, .note, .hold, .note,
   .note, .note, .note, .note,
   .note, .note, .halt, .note,
   .note, .note, .finish, .note] ++
  [.note, .note, .finish, .note,
   .note, .note, .finish, .note,
   .note, .note, .finish, .note,
   .note, .note, .finish, .note,
   .note, .note, .halt, .note,
   .note, .note, .note, .note]

/-- The reaction selected for a raise by the position's present state (R110 step 2). -/
def State.selectReaction (s : State) (p : Pos) (c : Condition) : Reaction :=
  match (s.seq p).state with
  | .outOfService => if s.reactionOf c .idle = .trip then .trip else .note
  | .halted =>
    if [StateClass.idle, .preflow, .flowing, .postflow].any fun k => s.reactionOf c k == .trip then .trip else .note
  | t =>
    match t.stateClass with
    | some k => s.reactionOf c k
    | none => .note

/-- A reaction applied in the position's present state (R111, R112). -/
def State.applyReaction (s : State) (p : Pos) (c : Condition) : Reaction → State
  | .note => s
  | .hold =>
    if c.isLevel ∧ (s.seq p).state.flowing then
      (s.mapSeq p fun q => { q with holdSet := q.holdSet.put c true }).addCause p .condition
    else s
  | .finish =>
    match (s.seq p).state with
    | .pulse | .ramp | .switch | .hold => s.endFill p .condition (some c)
    | .authorized | .admitting => s.cancelFill p .condition
    | _ => s
  | .halt =>
    match (s.seq p).state with
    | .halted | .outOfService => s
    | _ => s.haltPosition p .halt (some c) (.haltedBy c)
  | .trip => (s.tripSource (.reaction p c) (some p)).tripEffect p

/-- A raise reaches the sequencer (R102, R103, R110).  `level` says that a level condition has become active by it; a
raise of SENSOR_STALE in place of another condition leaves the level alone (R105). -/
def State.raise (s : State) (p : Pos) (c : Condition) (d : RaiseDetail) (level : Bool) : State :=
  let r := s.selectReaction p c
  let s := s.mapSeq p fun q =>
    { q with
      active := if level then q.active.put c true else q.active,
      raised := if q.state.inFill then q.raised.put c true else q.raised }
  (s.setFlag .condition (.position p) (.raise c d r)).applyReaction p c r

/-- A clear reaches the sequencer (R113).  Whether the fill resumes is decided by `settleHold` after the raises of the
same hand-over. -/
def State.clearLevel (s : State) (p : Pos) (c : Condition) : State :=
  s.mapSeq p fun q =>
    let h := q.holdSet.put c false
    { q with
      active := q.active.put c false, holdSet := h,
      causes := if q.holdSet.has c && h.isEmpty then q.causes.put .condition false else q.causes }

/-! ## Admission and pulse entry -/

/-- The stale points of a position among OUTLET_P_A, OUTLET_P_B, OUTLET_T and NOZZLE, in index order (R12). -/
def State.stalePoints (s : State) (p : Pos) : List Nat :=
  (s.pointsWhere fun e => e.scope == .position p && (e.fn.code ≤ 4)).filter fun i =>
    (s.live i).any fun r => !r.isValid

/-- Detail of a level condition carried into a fill (R104; DESIGN CHOICE, notes/assumptions/13.md). -/
def State.carryDetail (s : State) (p : Pos) : Condition → RaiseDetail
  | .overpressure => .value (((s.seq p).lastP.map Value.num).getD 0)
  | .sensorStale =>
    match s.stalePoints p with
    | i :: _ => .point i
    | [] => .none
  | .outOfCategory => .value (s.outletT p).num
  | _ => .none

/-- Level conditions active but not raised since the authorization are answered at PULSE entry, in code order (R104). -/
def State.carryIn (s : State) (p : Pos) : State :=
  (levelConditions.filter fun c => (s.seq p).active.has c && !(s.seq p).raised.has c).foldl
    (fun s c => s.raise p c (s.carryDetail p c) true) s

/-- Both grants are held: PULSE is entered (R80), with the carry-in (R104) after it, and then the METER_FAULT of an intake that
is not ready (R171) before a stored HALT (R122); neither rule gives the order of these two (DESIGN CHOICE,
notes/assumptions/40.md).  On an idle ring-out the COMMAND with the pulse opening begins transmission (R189) before the 0 that the
HALT writes, which then does not replace it in its slot (R27), though R122 says that this vehicle does not see the valve open
(DESIGN CHOICE, notes/assumptions/56.md). -/
def State.enterPulse (s : State) (p : Pos) (a : PosAlloc) : State :=
  let s := s.mapSeq p fun q =>
    { q with holdLimit := none, category := some a.category, band := some a.band, causes := HoldCauses.empty, window := [] }
  let notReady := s.intakeNotReady p
  let s := ((s.openRecord p).setPosState p .pulse).beginPulse p
  let s := s.carryIn p
  let s := if notReady then s.raise p .meterFault .meterNotReady false else s
  match (s.seq p).link with
  | some l => if l.command = .halt then s.addCause p .vehicle else s
  | none => s

/-- A position in ADMIT that holds both an allocation and a draw port enters PULSE (R80). -/
def State.tryPulse (s : State) (p : Pos) : State :=
  if (s.seq p).state = .admitting ∧ (s.draw p).claim.isSome then
    match (s.cool.allocOf (.position p)).bind Alloc.fill with
    | some a => s.enterPulse p a
    | none => s
  else s

/-- A link state started afresh (R117). -/
def LinkState.start : LinkState := ⟨.pending, none, none, none, none, none, none, .run, none⟩

/-- ADMIT is entered: the hold-limit timer starts, cooling and a draw port are asked for (R79, R117, R131). -/
def State.enterAdmit (s : State) (p : Pos) : State :=
  let d := s.after (s.header p).holdLimit
  let s := s.mapSeq p fun q => { q with couple := none, holdLimit := some d, link := some LinkState.start }
  let s := s.setPosState p .admitting
  let s := s.requestCooling (.position p (s.cls p) none)
  match s.choose p 0 (s.reference p) with
  | .claim b i => (s.claimBank p b i).tryPulse p
  | .wait b i => s.joinWait p b i
  | .exhausted => s.cancelFill p .noSupply

/-- AUTHORIZED is entered on an accepted authorization; a coupled nozzle goes on to ADMIT (R76). -/
def State.enterAuthorized (s : State) (p : Pos) (number effective : Nat) : State :=
  let h := s.header p
  let s := s.mapSeq p fun q =>
    { q.cleared with
      sale := some number, threshold := some (effective - h.anticipation), couple := some (s.after h.couple) }
  let s := s.setPosState p .authorized
  if s.nozzleIs p 2 then s.enterAdmit p else s

/-- The nozzle leaves COUPLED in ADMIT: back to AUTHORIZED with the record kept (R81, R103, R117). -/
def State.backToAuthorized (s : State) (p : Pos) : State :=
  let s := s.leaveAll p
  let d := s.after (s.header p).couple
  let s := s.mapSeq p fun q =>
    { q with holdLimit := none, couple := some d, raised := LevelSet.empty, link := q.link.map fun l => { l with timer := none } }
  s.setPosState p .authorized

/-! ## The ramp -/

/-- The fill is communicated (R119). -/
def Seq.communicated (q : Seq) : Bool := q.link.any fun l => l.mode == .communicated

/-- End target and ramp cap: the communicated cap, or the end pressure of the combination in force (R47, R83, R86). -/
def State.endTarget (s : State) (p : Pos) : Nat :=
  if (s.seq p).communicated then (s.header p).cap else (s.combination p).endPress

/-- The ramp time: the present count less the ramp mark, in every state.  Only its value in RAMP has an effect; POSITION_READ
reports the same difference in SWITCH and HOLD and after, where it goes on growing (R85; DESIGN CHOICE,
notes/assumptions/36.md). -/
def State.rampTime (s : State) (p : Pos) : Nat := s.since (s.seq p).rampMark

/-- Target and band computed for the present ramp time and stored (R47, R48, R86). -/
def State.computeTarget (s : State) (p : Pos) : State :=
  let k := s.combination p
  match (s.seq p).rampBase with
  | none => s
  | some b =>
    let t := rampBand (rampTarget b k.aprr (s.rampTime p) (s.endTarget p)) k.tolAbove k.tolBelow (s.header p).maxLimit
    s.mapSeq p fun q => { q with target := some t }

/-- A new outcome in the window, at most eight (R87). -/
def pushOutcome (w : List Conformance) (o : Conformance) : List Conformance := (w ++ [o]).drop (w.length - 7)

/-- OUT outcomes of a window (R87). -/
def outCount (w : List Conformance) : Nat := w.countP fun o => o == .outOfBand

/-- The conformance step of an evaluation (R86 step 3, R87). -/
def State.conformanceStep (s : State) (p : Pos) (v : Value) : State :=
  let h := s.header p
  match (s.seq p).target with
  | some t =>
    if v.valid ∧ h.rampDelay ≤ s.rampTime p then
      let w := pushOutcome (s.seq p).window (if t.inBand v.num then .inBand else .outOfBand)
      if h.conformanceN ≤ outCount w then
        (s.mapSeq p fun q => { q with window := [] }).raise p .conformanceLoss (.count (outCount w)) false
      else s.mapSeq p fun q => { q with window := w }
    else s
  | none => s

/-- The outcome of a bank check or switch test at the sequencer (R84, R86 step 4, R132). -/
def State.applySwitch (s : State) (p : Pos) : SwitchAnswer → State
  | .suits => s
  | .newClaim => s.enterSwitch p
  | .wait => s.addCause p .bank
  | .exhausted => s.endFill p .supplyExhausted none

/-- The bank check at RAMP entry, at the pressure named (R84, R132). -/
def State.bankCheck (s : State) (p : Pos) (named : Int) : State :=
  let (a, s) := s.switchTest p named
  s.applySwitch p a

/-- The valve step of an evaluation, kept as the evaluation record and written (R86 step 5, R50, R51). -/
def State.stepValve (s : State) (p : Pos) (v : Value) : State :=
  let h := s.header p
  match (s.seq p).target with
  | some t =>
    let o := valveStep t.target.num v (s.seq p).opening h.gain h.maxStep h.openLimit
    (s.mapSeq p fun q => { q with opening := o.opening, evaluation := some o }).writeFill p o.opening
  | none => s

/-- The switch test of an evaluation and the valve step after it, which is not taken once the test has taken the position
out of RAMP, whether or not its SWITCH completes at once (R86 steps 4 and 5). -/
def State.switchAndStep (s : State) (p : Pos) (v : Value) : State :=
  match if v.valid then s.switchTest p v.num else (.suits, s) with
  | (.suits, s) => s.stepValve p v
  | (a, s) => s.applySwitch p a

/-- A pressure evaluation but for its first step: target and band, then steps 2 to 5, each while the position is still in
RAMP (R86). -/
def State.evaluateRamp (s : State) (p : Pos) (v : Value) : State :=
  let inRamp := fun (s : State) => (s.seq p).state == .ramp
  let s := s.computeTarget p
  let s := if inRamp s && v.valid && (s.endTarget p : Int) ≤ v.num then s.endFill p .full none else s
  let s := if inRamp s then s.conformanceStep p v else s
  if inRamp s then s.switchAndStep p v else s

/-- RAMP is entered from PULSE (R84). -/
def State.enterRamp (s : State) (p : Pos) (p0 : Value) : State :=
  let h := s.header p
  let s := s.mapSeq p fun q =>
    { q with pulse := none, rampBase := some p0, rampMark := s.now, window := [], opening := h.pulseOpening,
             evaluation := none }
  let s := s.computeTarget p
  let s := (s.setPosState p .ramp).writeFill p h.pulseOpening
  s.bankCheck p p0.num

/-- A change of category reaches the sequencer (R89). -/
def State.changeCategory (s : State) (p : Pos) (c : Category) : State :=
  let s := s.mapSeq p fun q => { q with category := some c }
  if (s.seq p).state = .ramp then s.rebase p else s

/-! ## OVERPRESSURE (R105, R106) -/

/-- Outcome of a limit test on a value (R105). -/
def limitOutcome (v : Value) (limit : Int) : LimitOutcome :=
  if !v.valid then .substituted else if limit < v.num then .beyond else .within

/-- A passage of a level test into *substituted* from another outcome (R105, R164). -/
def passesToSubstituted (old new : LimitOutcome) : Bool :=
  new == .substituted && (old == .within || old == .beyond)

/-- The limit of the OVERPRESSURE test of a hand-over, or none where the test is not made (R106). -/
def State.overLimit (s : State) (p : Pos) : Option Int :=
  if (s.seq p).state = .outOfService then none else (s.headerFor p).map fun h => (h.maxLimit : Int)

end Sys2Proof.Machine
end

