-- ==== Sys2Proof/Machine/Scheduler.lean ====
section
/-! DEFINITION. The compression scheduler: the replenishment queue, the compressors' states, starts, targets, stops and
faults (chapter 9). -/

namespace Sys2Proof.Machine

/-! ## The replenishment queue (R139 to R141) -/

/-- Place of a tier in the queue order, HIGH first (R139). -/
def Tier.rank : Tier → Nat
  | .high => 0
  | .mid => 1
  | .low => 2

/-- An entry joins the back of its tier (R139). -/
def joinTier (e : QueueEntry) : List QueueEntry → List QueueEntry
  | [] => [e]
  | q :: l => if e.tier.rank < q.tier.rank then e :: q :: l else q :: joinTier e l

/-- The scheduler's copy of a bank's pressure and state (R140). -/
def State.copy (s : State) (b : Bank) : BankCopy := s.sched.copies.get b

/-- The scheduler's copy of a bank changed. -/
def State.mapCopy (s : State) (b : Bank) (f : BankCopy → BankCopy) : State :=
  s.mapSched fun d => { d with copies := d.copies.modify b f }

/-- A bank is in the queue. -/
def State.queued (s : State) (b : Bank) : Bool := s.sched.queue.any fun e => e.bank == b

/-- A bank is the target of a compressor. -/
def State.targeted (s : State) (b : Bank) : Bool := twoIndices.any fun c => (s.comp c).target == some b

/-- A pressure is valid and below a threshold. -/
def Value.below (v : Value) (limit : Nat) : Bool := v.valid && decide (v.num < (limit : Int))

/-- A pressure is valid and at or above a threshold. -/
def Value.atLeast (v : Value) (limit : Nat) : Bool := v.valid && decide ((limit : Int) ≤ v.num)

/-- BANK_CRITICAL is set for a bank (R141). -/
def State.noteCritical (s : State) (b : Bank) : State :=
  s.setFlag .bankCritical (.bank b) .none

/-- The join test for a bank (R140); `discharged` says that a discharge into it has just ended short of its ceiling. -/
def State.joins (s : State) (b : Bank) (discharged : Bool) : Bool :=
  let t := s.bankSite b
  (s.copy b).state == .available && (s.copy b).pressure.below (if discharged then t.ceiling else t.restart) &&
    !s.queued b && !s.targeted b

/-- The join test made, and the bank joined where it holds (R139 to R141). -/
def State.joinTest (s : State) (b : Bank) (discharged : Bool) : State :=
  if s.joins b discharged then
    let critical := (s.copy b).pressure.below (s.bankSite b).critical
    let s := s.mapSched fun d =>
      { d with queue := joinTier ⟨b, (s.bankSite b).tier, d.arrivals + 1, critical⟩ d.queue, arrivals := d.arrivals + 1 }
    if critical then s.noteCritical b else s
  else s

/-- A bank's entry removed from the queue (R140). -/
def State.dropEntry (s : State) (b : Bank) : State :=
  s.mapSched fun d => { d with queue := d.queue.filter fun e => e.bank != b }

/-- The critical mark of a queued bank brought up to date at a hand-over of its pressure (R141). -/
def State.markEntry (s : State) (b : Bank) : State :=
  let v := (s.copy b).pressure
  if v.valid then
    let critical := v.below (s.bankSite b).critical
    let rises := critical && s.sched.queue.any fun e => e.bank == b && !e.critical
    let s := s.mapSched fun d =>
      { d with queue := d.queue.map fun e => if e.bank = b then { e with critical := critical } else e }
    if rises then s.noteCritical b else s
  else s

/-! ## States -/

/-- STARTING, RUNNING, SWITCHING and UNLOADED: a run is on (R147). -/
def CompState.inRun : CompState → Bool
  | .starting | .running | .switching | .unloaded => true
  | _ => false

/-- A compressor's change of state, with the owners of its points where it enters or leaves DISABLED (R23, R24). -/
def State.setCompState (s : State) (c : Comp) (t : CompState) : State :=
  let old := (s.comp c).state
  let s := s.mapComp c fun r => { r with state := t }
  if old ≠ t ∧ (old = .disabled ∨ t = .disabled) then s.resolvePoints (s.actuatorsOf (.compressor c)) else s

/-- LOCKOUT is entered with its timer started at the minimum off time (R147). -/
def State.enterLockout (s : State) (c : Comp) : State :=
  let d := s.after (s.compSite c).minOff
  (s.mapComp c fun r => { r with timer := some d }).setCompState c .lockout

/-- The head becomes a compressor's target: it leaves the queue, the bank's discharge compressor is set and its valve
written open (R143). -/
def State.takeHead (s : State) (c : Comp) : State :=
  match s.sched.queue with
  | [] => s
  | e :: l =>
    let s := s.mapSched fun d => { d with queue := l }
    let s := s.mapComp c fun r => { r with target := some e.bank }
    (s.mapBank e.bank fun b => { b with discharge := some c }).writeDischarge c e.bank true

/-- The discharge into a compressor's target ends: the valve is written closed, the bank's discharge compressor cleared
and the target made absent (R144). -/
def State.endDischarge (s : State) (c : Comp) : State :=
  match (s.comp c).target with
  | none => s
  | some b =>
    let s := s.writeDischarge c b false
    let s := s.mapBank b fun l => { l with discharge := none }
    s.mapComp c fun r => { r with target := none }

/-- The RUNNING state is entered, and the finish and loss tests are handed over (R143, R145). -/
def State.enterRunning (s : State) (c : Comp) : State :=
  ((s.mapComp c fun r => { r with timer := none, oldTarget := none }).setCompState c .running).emit (.targetTest c)

/-- SWITCHING completes when both valves are MATCHED (R145). -/
def State.completeSwitching (s : State) (c : Comp) : State :=
  let r := s.comp c
  if r.state = .switching ∧ s.dischargeMatched c r.oldTarget ∧ s.dischargeMatched c r.target then s.enterRunning c else s

/-! ## What follows every join and removal (R140 to R142, R146) -/

/-- An UNLOADED compressor takes the head (R146). -/
def State.unloadedTake (s : State) (c : Comp) : State :=
  if (s.comp c).state = .unloaded ∧ s.sched.queue ≠ [] then
    ((s.takeHead c).mapComp c fun r => { r with timer := none }).setCompState c .running
  else s

/-- The request a compressor in COOL_WAIT makes: the head bank's discharge demand and the head's critical mark (R142). -/
def State.compRequest (s : State) (c : Comp) : Option CoolRequest :=
  match s.sched.queue with
  | [] => none
  | e :: _ => some (.compressor c (s.bankSite e.bank).demand e.critical)

/-- The bank at the head of the replenishment queue (R139). -/
def State.headBank (s : State) : Option Bank := s.sched.queue.head?.map QueueEntry.bank

/-- A compressor's request is stated for the present head (R142). -/
def State.noteAsked (s : State) (c : Comp) : State := s.mapComp c fun r => { r with asked := s.headBank }

/-- A request stands in the queue, or waits to be taken (R157). -/
def State.stated (s : State) (r : CoolRequest) : Bool :=
  s.cool.queue.contains r || s.handOvers.contains (.request r)

/-- A compressor in COOL_WAIT restates its request when the head or its mark has changed, to a bank of equal demand and
mark too, and withdraws it when the queue is empty (R142, R157). -/
def State.keepRequest (s : State) (c : Comp) : State :=
  if (s.comp c).state = .coolWait then
    match s.compRequest c with
    | none => (s.leaveCooling (.compressor c)).setCompState c .stopped
    | some r =>
      if (s.comp c).asked = s.headBank ∧ s.stated r = true then s else (s.noteAsked c).requestCooling r
  else s

/-- The DISCHARGE_T point is valid, with its limit watch, if it has one, ARMED (R142). -/
def State.dischargeReady (s : State) (c : Comp) : Bool :=
  match s.sensor .dischargeT (.compressor c) with
  | some r => r.isValid && r.watch != some .disarmed
  | none => false

/-- A STOPPED compressor may start (R142). -/
def State.mayStart (s : State) (c : Comp) : Bool :=
  (s.comp c).state == .stopped && !s.latched && s.dischargeReady c && !s.sched.queue.isEmpty &&
    twoIndices.all fun d => (s.comp d).state != .coolWait

/-- The start test of one compressor (R142). -/
def State.startTest (s : State) (c : Comp) : State :=
  if s.mayStart c then
    match s.compRequest c with
    | some r => ((s.setCompState c .coolWait).noteAsked c).requestCooling r
    | none => s
  else s

/-- A compressor's allocation is critical: STARTING, RUNNING or SWITCHING with a valid target pressure below the
critical threshold (R146). -/
def State.compCritical (s : State) (c : Comp) : Bool :=
  let r := s.comp c
  (r.state == .starting || r.state == .running || r.state == .switching) &&
    r.target.any fun b => (s.copy b).pressure.below (s.bankSite b).critical

/-- The end of every scheduler event: an UNLOADED compressor takes the head (R146), a compressor in COOL_WAIT restates
or withdraws (R142), the start tests are made (R142), and the allocations' critical marks follow (R146). -/
def State.schedule (s : State) : State :=
  let s := twoIndices.foldl State.unloadedTake s
  let s := twoIndices.foldl State.keepRequest s
  let s := twoIndices.foldl State.startTest s
  twoIndices.foldl (fun s c => s.setAllocCritical c (s.compCritical c)) s

/-! ## Grants, targets, stops (R143 to R149) -/

/-- A grant reaches a compressor (R143).  COMP_RUN is written before the discharge valve, in the order in which the rule names
them, and so are their COMMAND frames placed (DESIGN CHOICE, notes/assumptions/5.md). -/
def State.compGrant (s : State) (c : Comp) : State :=
  if (s.comp c).state = .coolWait ∧ s.sched.queue ≠ [] then
    let s := (s.writeRun c true).takeHead c
    let d := s.after (s.compSite c).startTimeout
    ((s.mapComp c fun r => { r with timer := some d }).setCompState c .starting).schedule
  else s.leaveCooling (.compressor c)

/-- A run is stopped into a state (R147).  `rejoin` is off at RESTART (R152); `release` is off when the allocation has
been reclaimed (R149). -/
def State.stopRun (s : State) (c : Comp) (why : StopReason) (rejoin release : Bool) (into : CompState) : State :=
  let target := (s.comp c).target
  let s := s.writeRun c false
  let s := sixIndices.foldl (fun s b => s.writeDischarge c b false) s
  let s := s.mapComp c fun r => { r with timer := none, oldTarget := none }
  let s := s.endDischarge c
  let s := match target with
    | some b => if rejoin then s.joinTest b true else s
    | none => s
  let s := if release then s.leaveCooling (.compressor c) else s
  let s := s.mapComp c fun r => { r with lastStop := some why }
  if into = .lockout then s.enterLockout c else s.setCompState c into

/-- A compressor's target is finished or lost: the discharge ends, and the compressor goes on by the queue and its run
time (R144).  A finished bank stands at its ceiling and fails the join test. -/
def State.goOn (s : State) (c : Comp) : State :=
  let old := (s.comp c).target
  let s := s.endDischarge c
  let s := match old with
    | some b => s.joinTest b true
    | none => s
  if s.sched.queue ≠ [] then
    let s := (s.mapComp c fun r => { r with oldTarget := old }).takeHead c
    ((s.setCompState c .switching).completeSwitching c).schedule
  else if (s.compSite c).minRun ≤ s.since (s.comp c).runMark then
    (s.stopRun c .runComplete true true .lockout).schedule
  else
    let d := (s.comp c).runMark + BitVec.ofNat 32 (s.compSite c).minRun
    ((s.mapComp c fun r => { r with timer := some d }).setCompState c .unloaded).schedule

/-- The finish test on the target's pressure, and the loss test on its state, as the scheduler holds them (R144). -/
def State.targetEnded (s : State) (c : Comp) : Bool :=
  (s.comp c).state == .running &&
    (s.comp c).target.any fun b => (s.copy b).pressure.atLeast (s.bankSite b).ceiling || (s.copy b).state != .available

/-- The finish and loss tests of a RUNNING compressor (R144, R145). -/
def State.targetTest (s : State) (c : Comp) : State := if s.targetEnded c then s.goOn c else s

/-- A compressor faults with a cause (R148). -/
def State.faultComp (s : State) (c : Comp) (cause : FaultCause) : State :=
  let t := (s.comp c).state
  if t = .faulted ∨ t = .disabled then s
  else
    let s :=
      if t.inRun then s.stopRun c .fault true true .faulted
      else
        let s := if t = .coolWait then s.leaveCooling (.compressor c) else s
        (s.mapComp c fun r => { r with timer := none }).setCompState c .faulted
    let s := s.mapComp c fun r => { r with lastFault := some cause }
    (s.setFlag .compressorFault (.compressor c) (.fault cause)).schedule

/-- The allocator has taken a compressor's allocation (R149). -/
def State.coolingReclaimed (s : State) (c : Comp) : State :=
  if (s.comp c).state.inRun then (s.stopRun c .coolingReclaimed true false .lockout).schedule else s

/-- The trip latch has been set, at one compressor (R150). -/
def State.tripComp (s : State) (c : Comp) : State :=
  let t := (s.comp c).state
  if t = .coolWait then (s.leaveCooling (.compressor c)).setCompState c .stopped
  else if t.inRun then s.stopRun c .trip true true .lockout
  else s

/-- The trip latch has been set (R150).  C0 stops before C1, so its target rejoins the queue with the earlier stamp
(DESIGN CHOICE, notes/assumptions/5.md).  Both have stopped before what follows a join is done, so that an UNLOADED C1 stops by
R150 and does not first take the bank that C0's stop has put in the queue, as R140 and R146 have it take one (DESIGN CHOICE,
notes/assumptions/54.md). -/
def State.tripComps (s : State) : State := (twoIndices.foldl State.tripComp s).schedule

/-! ## Hand-overs to the scheduler -/

/-- A change of a bank's state is handed over (R126, R140, R144). -/
def State.bankStateTold (s : State) (b : Bank) : State :=
  let t := (s.bank b).state
  let s := s.mapCopy b fun k => { k with state := t }
  let s := if t = .available then s else s.dropEntry b
  let s := twoIndices.foldl (fun s c => if (s.comp c).target = some b then s.targetTest c else s) s
  (s.joinTest b false).schedule

/-- A BANK_P hand-over reaches the scheduler (R140, R141, R144). -/
def State.bankPressureTold (s : State) (b : Bank) (v : Value) : State :=
  let s := s.mapCopy b fun k => { k with pressure := v }
  let s := if v.atLeast (s.bankSite b).ceiling then s.dropEntry b else s.markEntry b
  let s := twoIndices.foldl (fun s c => if (s.comp c).target = some b then s.targetTest c else s) s
  (s.joinTest b false).schedule

/-- A RUN_FB hand-over (R143, R148). -/
def State.runFeedback (s : State) (c : Comp) (on : Bool) : State :=
  match (s.comp c).state with
  | .starting =>
    if on then ((s.mapComp c fun r => { r with runMark := s.now }).enterRunning c).schedule else s
  | .running | .switching | .unloaded => if on then s else s.faultComp c .runLost
  | _ => s

/-! ## Expiries, requests and resets -/

/-- The start timer expires (R143, R148). -/
def State.startExpired (s : State) (c : Comp) : State :=
  if (s.comp c).state = .starting then s.faultComp c .startTimeout else s

/-- The run timer expires (R146). -/
def State.runExpired (s : State) (c : Comp) : State :=
  if (s.comp c).state = .unloaded then (s.stopRun c .runComplete true true .lockout).schedule else s

/-- The lockout timer expires (R147). -/
def State.lockoutExpired (s : State) (c : Comp) : State :=
  if (s.comp c).state = .lockout then
    ((s.mapComp c fun r => { r with timer := none }).setCompState c .stopped).schedule
  else s

/-- COMPRESSOR_DISABLE (R151). -/
def State.disableComp (s : State) (c : Comp) : State :=
  let t := (s.comp c).state
  if t = .disabled then s
  else if t.inRun then (s.stopRun c .disabled true true .disabled).schedule
  else
    let s := if t = .coolWait then s.leaveCooling (.compressor c) else s
    ((s.mapComp c fun r => { r with timer := none }).setCompState c .disabled).schedule

/-- One compressor at RESTART (R152). -/
def State.restartComp (s : State) (c : Comp) : State :=
  let t := (s.comp c).state
  if t = .disabled then s
  else if t.inRun then s.stopRun c .restart false true .lockout
  else
    let s := if t = .coolWait then s.leaveCooling (.compressor c) else s
    s.enterLockout c

/-- The scheduler at RESTART (R152). -/
def State.restartSched (s : State) : State :=
  let s := twoIndices.foldl State.restartComp s
  let s := sixIndices.foldl (fun s b => s.mapBank b fun l => { l with discharge := none }) s
  let s := s.mapSched fun d => { d with queue := [] }
  (sixIndices.foldl (fun s b => s.joinTest b false) s).schedule

/-- The scheduler at a SITE activation: the queue emptied, the copies as R138 gives them (R152). -/
def State.siteSched (s : State) : State :=
  s.mapSched fun d =>
    { d with queue := [],
             copies := d.copies.map fun k => ⟨Value.substitute 0, if k.state = .disabled then .disabled else .unknown⟩ }

/-- The scheduler at a power-up (R152). -/
def State.powerUpSched (s : State) : State :=
  let s := s.mapSched fun _ =>
    { queue := [], arrivals := 0, comps := Two.all CompRecord.start, copies := Six.all BankCopy.start }
  if s.site.isSome then twoIndices.foldl State.enterLockout s else s

end Sys2Proof.Machine
end

