-- ==== Sys2Proof/Machine/Capacity.lean ====
section
/-! DEFINITION. The cooling allocator's service pass, grants, band, capacity, reclaim and outlet monitors
(R153, R154, R158 to R164). -/

namespace Sys2Proof.Machine

/-! ## Service and grants (R158, R159) -/

/-- The first category of a walk with a permitted combination whose demand fits the free capacity (R158). -/
def State.fittingCategory (s : State) (p : Pos) (band : Nat) (walk : List Category) : Option Category :=
  walk.find? fun c => (s.combinationAt p band c).aprr != 0 && s.cool.fits (s.combinationAt p band c).demand

/-- A table entry made for a holder, its only one, with the next admission stamp, and its request gone from the queue
(R155, R159). -/
def State.grantEntry (s : State) (h : Holder) (amount : Nat) (fill : Option PosAlloc) (critical : Bool) : State :=
  s.mapCool fun c =>
    { c with table := (c.table.filter fun a => a.holder != h) ++ [⟨h, amount, c.stamps + 1, fill, critical⟩],
             stamps := c.stamps + 1,
             queue := c.queue.filter fun r => r.holder != h }

/-- OUT_OF_CATEGORY becomes inactive and the clear is handed to the sequencer (R159, R164). -/
def State.clearCategoryLevel (s : State) (p : Pos) : State :=
  if (s.cool.monitors.get p).level then
    (s.mapMonitor p fun m => { m with level := false }).clearLevel p .outOfCategory
  else s

/-- A grant reaches a position in ADMIT: its monitor starts afresh, a level of an earlier fill is cleared, and PULSE is
entered where the draw port is held too (R80, R159). -/
def State.grantAdmit (s : State) (p : Pos) : State :=
  if (s.seq p).state = .admitting then
    let s := s.mapMonitor p fun m => { m with settle := none, grace := none, last := .none }
    (s.clearCategoryLevel p).tryPulse p
  else s.leaveCooling (.position p)

/-- A new category of a fill with its consequences in the sequencer and the monitor (R89, R163). -/
def State.newCategory (s : State) (p : Pos) (c : Category) : State := (s.changeCategory p c).monitorCategory p

/-- A grant reaches a fill already begun: the category, then the cause COOLING removed (R89, R91, R159). -/
def State.grantHeld (s : State) (p : Pos) (c : Category) : State :=
  if (s.seq p).state.flowing ∧ (s.seq p).causes.cooling then
    let s := if (s.seq p).category = some c then s else (s.newCategory p c).recomputeSetpoint
    s.removeCause p .cooling
  else s.leaveCooling (.position p)

/-- The head of the queue granted where it can be; `none` when the pass stops (R158, R159).  A fill already begun keeps its
downgrade count also where the grant changes its category (R155, R159; DESIGN CHOICE, notes/assumptions/52.md). -/
def State.grantHead (s : State) : Option State :=
  match s.cool.queue with
  | [] => none
  | .compressor c demand critical :: _ =>
    if s.cool.fits demand then some ((s.grantEntry (.compressor c) demand none critical).compGrant c) else none
  | .position p cls none :: _ =>
    let b := s.cool.band
    match s.fittingCategory p b.val allCategories with
    | none => none
    | some k =>
      some ((s.grantEntry (.position p) (s.combinationAt p b.val k).demand (some ⟨cls, b, k, 0⟩) false).grantAdmit p)
  | .position p _ (some f) :: _ =>
    match s.fittingCategory p f.band.val (f.category :: f.category.warmer) with
    | none => none
    | some k =>
      some ((s.grantEntry (.position p) (s.combinationAt p f.band.val k).demand (some { f with category := k })
        false).grantHeld p k)

/-- One grant of a service pass, with the rest of the pass next; the pass stops at the first head that cannot be granted
(R158). -/
def State.servicePass (s : State) : State :=
  match ({ s with handOvers := .serving :: s.handOvers } : State).grantHead with
  | some t => t
  | none => s

/-- A release that waited for the pass of an earlier item is taken, with its own pass (R157). -/
def State.takeRelease (s : State) (h : Holder) : State := (s.removeEntry h).servicePass

/-- A request that waited for the pass of an earlier item is taken, with its own pass; one whose holder has withdrawn
meanwhile is gone (R157, R159). -/
def State.takeRequest (s : State) (r : CoolRequest) : State :=
  if s.asksCooling r.holder then (s.placeRequest r).servicePass else s

/-! ## Band and capacity (R153, R154) -/

/-- The ambient band from the five edges, the ambient value and the present band (R154). -/
def bandStep (edges : List Int) (ambient : Int) (b : Nat) : Nat :=
  let r := edges.countP fun e => e ≤ ambient
  let f := edges.countP fun e => e - Config.bandHysteresis ≤ ambient
  if b < r then r else if f < b then f else b

/-- A band number as a band. -/
def bandOfNat (n : Nat) : Fin 6 := if h : n < 6 then ⟨n, h⟩ else 5

/-- The AMBIENT number; the substitute while the table has no such point. -/
def State.ambient (s : State) : Int := ((s.sensor .ambient .station).map LiveRecord.value).getD 1000

/-- The band follows the ambient value; 5 while no PROTOCOL slot is ACTIVE (R154). -/
def State.updateBand (s : State) : State :=
  let b := match s.protocol with
    | some t => bandOfNat (bandStep t.bandEdges s.ambient s.cool.band.val)
    | none => 5
  s.mapCool fun c => { c with band := b }

/-- The supply temperature is valid and within its limit (R153). -/
def State.supplyWithin (s : State) (site : StationSite) : Bool :=
  (s.sensor .chillerSupplyT .station).any fun r => r.isValid && r.value ≤ site.supplyLimit

/-- The effective capacity (R153). -/
def State.effectiveCapacity (s : State) : Nat :=
  match s.station with
  | none => 0
  | some site =>
    if ((s.sensor .chillerRun .station).any fun r => r.isValid && r.value == 1) && s.supplyWithin site then
      site.capacities.getD s.cool.band.val 0
    else 0

/-! ## Reclaim (R160 to R162) -/

/-- The held sum is within the capacity. -/
def Cooling.within (c : Cooling) : Bool := c.heldSum ≤ c.capacity

/-- The entry of the latest admission stamp among those that satisfy `q` (R160). -/
def Cooling.latest (c : Cooling) (q : Alloc → Bool) : Option Alloc :=
  (c.table.filter q).foldl
    (fun acc a =>
      match acc with
      | none => some a
      | some b => if b.stamp < a.stamp then some a else some b)
    none

/-- A compressor's entry that step 1 takes, its critical mark clear, or step 3, which finds no other left (R160). -/
def Alloc.isComp (critical : Bool) (a : Alloc) : Bool :=
  match a.holder with
  | .compressor _ => critical || !a.critical
  | .position _ => false

/-- A position's entry. -/
def Alloc.isPos (a : Alloc) : Bool :=
  match a.holder with
  | .position _ => true
  | .compressor _ => false

/-- Steps 1 and 3: one compressor entry taken while the held sum is above the capacity (R160). -/
def State.reclaimComp (critical : Bool) (s : State) : State :=
  if s.cool.within then s
  else
    match s.cool.latest (Alloc.isComp critical) with
    | some ⟨.compressor c, _, _, _, _⟩ => (s.removeEntry (.compressor c)).coolingReclaimed c
    | _ => s

/-- A position's entry moved to a warmer category with its demand (R161). -/
def State.moveEntry (s : State) (p : Pos) (k : Category) : State :=
  s.mapAlloc (.position p) fun a =>
    match a.fill with
    | some f =>
      { a with amount := (s.combinationAt p f.band.val k).demand,
               fill := some { f with category := k, downgrades := f.downgrades + 1 } }
    | none => a

/-- One position of a pass of step 2 (R161). -/
def State.downgrade (s : State) (p : Pos) : State :=
  if s.cool.within || !(s.seq p).state.flowing then s
  else
    match (s.cool.allocOf (.position p)).bind (s.downgradeCategory p) with
    | some k => (s.moveEntry p k).newCategory p k
    | none => s

/-- An entry put in its place in a list, most recent stamp first. -/
def insertByStamp (a : Alloc) : List Alloc → List Alloc
  | [] => [a]
  | b :: l => if b.stamp ≤ a.stamp then a :: b :: l else b :: insertByStamp a l

/-- The positions with an entry, most recent stamp first (R161). -/
def Cooling.positionsByStamp (c : Cooling) : List Pos :=
  ((c.table.filter Alloc.isPos).foldr insertByStamp []).filterMap fun a =>
    match a.holder with
    | .position p => some p
    | .compressor _ => none

/-- One pass of step 2 (R161). -/
def State.downgradePass (s : State) : State := s.cool.positionsByStamp.foldl State.downgrade s

/-- Step 4: the position entry of the latest stamp taken, its request queued and its sequencer told (R162). -/
def State.reclaimPos (s : State) : State :=
  if s.cool.within then s
  else
    match s.cool.latest Alloc.isPos with
    | some ⟨.position p, _, _, fill, _⟩ =>
      let flowing := (s.seq p).state.flowing
      let s := s.removeEntry (.position p)
      let s := s.placeRequest (.position p ((fill.map PosAlloc.cls).getD (s.cls p)) (if flowing then fill else none))
      if flowing then s.addCause p .cooling else s
    | _ => s

/-- A reclaim: the four steps, then the event, the setpoint and a service pass (R160).  A fill moves at most twice, so
two passes of step 2 are all there can be. -/
def State.reclaim (s : State) : State :=
  let before := s.cool.heldSum
  let s := (s.reclaimComp false).reclaimComp false
  let s := s.downgradePass.downgradePass
  let s := (s.reclaimComp true).reclaimComp true
  let s := sixIndices.foldl (fun s _ => s.reclaimPos) s
  let s := s.setFlag .capacityReduced .station (.capacity s.cool.capacity before s.cool.heldSum)
  s.recomputeSetpoint.emit .service

/-- The effective capacity is recomputed, `old` being the allocator before the event: a reclaim where it falls below the
held sum, otherwise a service pass where it has changed (R153), and where the band has, by which a head may be let through
(R158; DEDUCED, notes/assumptions/29.md). -/
def State.recomputeSince (s : State) (old : Cooling) : State :=
  let new := s.effectiveCapacity
  let s := s.mapCool fun c => { c with capacity := new }
  if new < s.cool.heldSum then s.reclaim
  else if new ≠ old.capacity ∨ s.cool.band ≠ old.band then s.emit .service
  else s

/-- The effective capacity is recomputed in the present band (R153). -/
def State.recomputeCapacity (s : State) : State := s.recomputeSince s.cool

/-- The band follows the ambient value, and the effective capacity the band (R153, R154). -/
def State.recomputeBand (s : State) : State := s.updateBand.recomputeSince s.cool

/-! ## Outlet monitors (R163, R164) -/

/-- The limit of the outlet test of a hand-over, or none where it is not made (R163). -/
def State.outletLimit (s : State) (p : Pos) : Option Int :=
  match (s.seq p).state.flowing, (s.seq p).category, s.boundProtocol p with
  | true, some c, some t => some (t.categoryLimit c)
  | _, _, _ => none

/-- An outcome clears OUT_OF_CATEGORY where it is active: WITHIN, or a passage into SUBSTITUTED (R164). -/
def State.outletClears (s : State) (p : Pos) (o : LimitOutcome) : State :=
  if o = .within ∨ passesToSubstituted (s.cool.monitors.get p).last o then s.clearCategoryLevel p else s

/-- An outcome is stored and the grace timer started or stopped by it (R163). -/
def State.outletTimer (s : State) (p : Pos) (o : LimitOutcome) : State :=
  let d := s.after (s.header p).catGrace
  let ramp := (s.seq p).state == .ramp
  s.mapMonitor p fun m =>
    let grace :=
      if o = .beyond then
        if ramp && m.settle.isNone && m.grace.isNone && !m.level then some d else m.grace
      else none
    { m with last := o, grace := grace }

/-- The grace timer expires: the fill is re-categorised, or the condition is raised (R164). -/
def State.graceExpired (s : State) (p : Pos) : State :=
  let s := s.mapMonitor p fun m => { m with grace := none }
  match (s.cool.allocOf (.position p)).bind (s.downgradeCategory p) with
  | some k => (((s.moveEntry p k).newCategory p k).recomputeSetpoint).emit .service
  | none =>
    let s := s.mapMonitor p fun m => { m with level := true }
    s.raise p .outOfCategory (.value (s.outletT p).num) true

end Sys2Proof.Machine
end

