-- ==== Sys2Proof/Machine/Banks.lean ====
section
/-! DEFINITION. The bank selector's live records and waiters: pressure hand-overs, changes of bank state, freed ports
(R126, R134 to R136). -/

namespace Sys2Proof.Machine

/-- A claim made for a waiter reaches its sequencer (R134); a position past its fill releases it at once, and it passes
to the next waiter (R92). -/
def State.portClaimed (s : State) (p : Pos) : State :=
  if (s.seq p).state = .admitting then s.tryPulse p
  else if (s.seq p).state.flowing then s.removeCause p .bank
  else s.withdraw p

/-- Exhaustion of a waiter's supply reaches its sequencer (R88, R134). -/
def State.supplyGone (s : State) (p : Pos) : State :=
  if (s.seq p).state = .admitting then s.cancelFill p .noSupply else s.endFill p .supplyExhausted none

/-- The choice of a position taken out of a wait queue continues from place `k` (R134, R135). -/
def State.continueChoice (s : State) (p : Pos) (k : Nat) : State :=
  let s := s.setDraw p Draw.empty
  match s.choose p k (s.reference p) with
  | .claim b i => (s.claimBank p b i).portClaimed p
  | .wait b i => s.joinWait p b i
  | .exhausted => s.supplyGone p

/-- The place of a position in its class sequence (R127). -/
def State.place (s : State) (p : Pos) : Nat := (s.draw p).index.getD 0

/-- One round of the hand-over of a freed port: the head of the queue is taken out and tested (R134). -/
def State.portRound (s : State) (b : Bank) : State :=
  match (s.bank b).queue with
  | [] => s
  | p :: l =>
    if s.hasPort b then
      let s := s.mapBank b fun k => { k with queue := l }
      if s.suits p b (s.reference p) then (s.claimBank p b (s.place p)).portClaimed p
      else s.continueChoice p (s.place p + 1)
    else s

/-- A freed port is handed to the bank's waiters, at most six of them (R126, R134). -/
def State.portFreed (s : State) (b : Bank) : State := sixIndices.foldl (fun s _ => s.portRound b) s

/-- The bank passes out of AVAILABLE: its waiters are taken out in queue order (R135). -/
def State.waitersOut (s : State) (b : Bank) : State :=
  let q := (s.bank b).queue
  let s := s.mapBank b fun k => { k with queue := [] }
  q.foldl (fun s p => s.continueChoice p (s.place p + 1)) s

/-- The bank state becomes `t`, and nobody is told yet (R126). -/
def State.putBankState (s : State) (b : Bank) (t : BankState) : State := s.mapBank b fun k => { k with state := t }

/-- A change of a bank's state from `old` is handed to the scheduler and then, out of AVAILABLE, to the waiters (R126, R135; the
order of the two is a DESIGN CHOICE, notes/assumptions/40.md). -/
def State.bankStateChanged (s : State) (b : Bank) (old : BankState) : State :=
  let s := s.bankStateTold b
  if old = .available then s.waitersOut b else s

/-- The bank state becomes `t`, with what follows from a change (R126). -/
def State.setBankState (s : State) (b : Bank) (t : BankState) : State :=
  let old := (s.bank b).state
  if old = t then s else (s.putBankState b t).bankStateChanged b old

/-- A BANK_P hand-over (R126, R140), by whichever BANK_P point of the bank it comes (DESIGN CHOICE, notes/assumptions/42.md). -/
def State.bankReading (s : State) (b : Bank) (v : Value) : State :=
  let s := s.mapBank b fun k => { k with pressure := v }
  let s := if (s.bank b).state = .disabled then s
    else s.setBankState b (if v.valid then .available else .unknown)
  s.bankPressureTold b v

/-- The state BANK_ENABLE gives a bank (R136), by the lowest BANK_P point of the bank: R64 does not bar a second one (DESIGN
CHOICE, notes/assumptions/42.md). -/
def State.enabledState (s : State) (b : Bank) : BankState :=
  if (s.sensor .bankP (.bank b)).any LiveRecord.isValid then .available else .unknown

end Sys2Proof.Machine
end

