-- ==== Sys2Proof/Machine/Intake.lean ====
section
/-! DEFINITION. The sensor side of the point unit: readings, limit watches, the outlet pressure pair, the position level
conditions, and the hand-over of a changed record to its consumers (R5 to R15, R19). -/

namespace Sys2Proof.Machine

/-! ## Readings into records (R6 to R8) -/

/-- A reading is a valid reading of a point (R6, R7). -/
def PointEntry.validReading (e : PointEntry) (r : Reading) : Bool :=
  match r.status with
  | .fault => false
  | .ok => if e.fn.kind = .discrete then (r.value.toNat : Int) ≤ e.fn.sensorRange.2 else true

/-- The record after a valid reading of a point with value set `range` (R6, R7). -/
def PointEntry.validRecord (e : PointEntry) (old : LiveRecord) (range : Int × Int) (w : Word) (deadline : Count) :
    LiveRecord :=
  let v := e.fn.valueOfWord w
  let c := clampInt range.1 range.2 v
  { old with value := c, quality := .good, clamped := decide (c ≠ v), freshness := .fresh, deadline := some deadline }

/-- The record of a point that is stale after an invalid reading or an expiry (R7, R8). -/
def PointEntry.staleRecord (e : PointEntry) (old : LiveRecord) : LiveRecord :=
  { old with value := e.substitute, quality := .invalid, clamped := false, freshness := .stale, deadline := none }

/-! ## Limit watches (R14, R15, R19) -/

/-- One evaluation of a watch: its new state, and whether it raises (R14). -/
def watchStep (leanLow : Bool) (w : WatchState) (v limit : Int) (hyst : Nat) : WatchState × Bool :=
  match w with
  | .armed =>
    if (if leanLow then v ≤ limit else limit ≤ v) then (.disarmed, true) else (.armed, false)
  | .disarmed =>
    if (if leanLow then limit + hyst < v else v < limit - hyst) then (.armed, false) else (.disarmed, false)

/-- A record's watch evaluated (R14). -/
def PointEntry.evaluate (e : PointEntry) (r : LiveRecord) : LiveRecord × Bool :=
  match e.watch, r.watch with
  | some (limit, hyst), some w =>
    let (w', raises) := watchStep e.fn.leanLow w r.value limit hyst
    ({ r with watch := some w' }, raises)
  | _, _ => (r, false)

/-- A DISARMED watch re-evaluated at a position reset (R19). -/
def PointEntry.rearm (e : PointEntry) (r : LiveRecord) : LiveRecord :=
  match e.watch, r.watch with
  | some (limit, _), some .disarmed =>
    if (if e.fn.leanLow then limit < r.value else r.value < limit) then { r with watch := some .armed } else r
  | _, _ => r

/-- The watches of a position's sensor points re-evaluated (R19). -/
def State.rearmWatches (s : State) (p : Pos) : State :=
  (s.pointsWhere fun e => e.fn.isSensor && e.scope == .position p).foldl
    (fun s i =>
      match s.entry i, s.live i with
      | some e, some r => s.setRecord i (.sensor (e.rearm r))
      | _, _ => s)
    s

/-! ## The outlet pressure pair (R11 to R13) -/

/-- The agreement tolerance of a position (R13). -/
def State.tolerance (s : State) (p : Pos) : Nat := ((s.headerFor p).map ClassHeader.sensorTol).getD 0

/-- The pair of two member records (R11, R12). -/
def combinePair (a b : LiveRecord) (tol : Nat) : Pair :=
  if a.isValid && b.isValid then
    if (a.value - b.value).natAbs ≤ tol then
      ⟨.agree, ⟨(a.value + b.value + 1) / 2, a.quality.worst b.quality, a.clamped || b.clamped⟩⟩
    else ⟨.disagree, ⟨max a.value b.value, .degraded, a.clamped || b.clamped⟩⟩
  else if a.isValid then ⟨.single, ⟨a.value, .degraded, a.clamped⟩⟩
  else if b.isValid then ⟨.single, ⟨b.value, .degraded, b.clamped⟩⟩
  else Pair.start

/-- A record in the place of a member the table does not have. -/
def LiveRecord.absent : LiveRecord := ⟨10000, .invalid, false, .never, none, none⟩

/-- The pair of a position recombined (R11). -/
def State.recombine (s : State) (p : Pos) : State :=
  let a := (s.sensor .outletPA (.position p)).getD LiveRecord.absent
  let b := (s.sensor .outletPB (.position p)).getD LiveRecord.absent
  s.mapPoints fun u => { u with pairs := u.pairs.set p (combinePair a b (s.tolerance p)) }

/-! ## Conditions of a hand-over at a position (R12, R15, R105, R113) -/

/-- What the point unit and the level tests find on one hand-over at a position: a watch raise on a GOOD and on an
INVALID value, the levels of R12 as they now stand, the test made on the value, and whether its number stands past the
limit of that test. -/
structure Findings where
  limitWatch : Bool
  watchStale : Bool
  stale      : Bool
  disagree   : Bool
  press      : Option LimitOutcome
  outlet     : Option LimitOutcome
  past       : Bool
  deriving DecidableEq, Repr

/-- Clears of a hand-over, taken before its raises (R105, R110, R113, R164). -/
def State.takeClears (s : State) (p : Pos) (f : Findings) : State :=
  let q := (s.seq p).active
  let s := match f.press with
    | some o => if o ≠ .beyond ∧ q.overpressure then s.clearLevel p .overpressure else s
    | none => s
  let s := if q.sensorStale && !f.stale then s.clearLevel p .sensorStale else s
  let s := if q.sensorDisagree && !f.disagree then s.clearLevel p .sensorDisagree else s
  match f.outlet with
  | some o => s.outletClears p o
  | none => s

/-- The level SENSOR_STALE becomes active on this hand-over (R12). -/
def State.staleRises (s : State) (p : Pos) (f : Findings) : Bool := f.stale && !(s.seq p).active.sensorStale

/-- The outlet temperature test passes into *substituted* on this hand-over with a number past its limit; a substitute within
the limit raises nothing (R105). -/
def State.outletSubstitutes (s : State) (p : Pos) (f : Findings) : Bool :=
  f.past && f.outlet.any fun o => passesToSubstituted (s.cool.monitors.get p).last o

/-- The OVERPRESSURE test passes into *substituted* on this hand-over with a number past its limit (R105). -/
def State.pressureSubstitutes (s : State) (p : Pos) (f : Findings) : Bool :=
  f.past && f.press.any fun o => passesToSubstituted (s.seq p).overTest o

/-- The OVERPRESSURE test alone raises SENSOR_STALE on this hand-over.  Where the level or a watch raises it too, theirs is the
one raise, and it comes ahead of the value (R9, R12, R15, R105). -/
def State.testAloneStale (s : State) (p : Pos) (f : Findings) : Bool :=
  s.pressureSubstitutes p f && !(s.staleRises p f || f.watchStale)

/-- Raises of a hand-over of point `i` other than the sequencer's own, with one raise of SENSOR_STALE at most
(R12, R15, R105, R110). -/
def State.takeRaises (s : State) (p : Pos) (i : Nat) (f : Findings) (substituted : Bool) : State :=
  let rises := s.staleRises p f
  let s := if f.limitWatch then s.raise p .limitWatch (.point i) false else s
  let s := if rises || f.watchStale || substituted then s.raise p .sensorStale (.point i) rises else s
  if f.disagree && !(s.seq p).active.sensorDisagree then s.raise p .sensorDisagree .none true else s

/-- Clears, then raises (R113). -/
def State.takeConditions (s : State) (p : Pos) (i : Nat) (f : Findings) : State :=
  let substituted := s.outletSubstitutes p f
  (s.takeClears p f).takeRaises p i f substituted

/-! ## Values at the position sequencer and the allocator -/

/-- A combined outlet pressure of point `i` reaches the sequencer: stored, and tested for OVERPRESSURE, in RAMP behind the
target (R73, R86 step 1, R106).  `stale` says that the test raises SENSOR_STALE in place of its own condition (R105). -/
def State.pressureRaise (s : State) (p : Pos) (i : Nat) (v : Value) (tested : Option LimitOutcome) (stale : Bool) : State :=
  let s := s.mapSeq p fun q =>
    { q with lastP := some v, lastValidP := if v.valid then some v else q.lastValidP, overTest := tested.getD q.overTest }
  let s := if (s.seq p).state = .ramp then s.computeTarget p else s
  if stale then s.raise p .sensorStale (.point i) false
  else if tested = some .beyond ∧ (s.seq p).active.overpressure = false then
    s.raise p .overpressure (.value v.num) true
  else s

/-- A combined outlet pressure is evaluated in RAMP, and tested for the end of VENT (R86, R94). -/
def State.pressureValue (s : State) (p : Pos) (v : Value) : State :=
  if (s.seq p).state = .ramp then s.evaluateRamp p v else s.ventTest p v

/-- An outlet temperature reaches the allocator (R163). -/
def State.temperatureValue (s : State) (p : Pos) (outlet : Option LimitOutcome) : State :=
  match outlet with
  | some o => s.outletTimer p o
  | none => s

/-- A nozzle state reaches the sequencer (R76, R81, R95). -/
def State.nozzleValue (s : State) (p : Pos) : State :=
  match (s.seq p).state with
  | .authorized => if s.nozzleIs p 2 then s.enterAdmit p else s
  | .admitting => if s.nozzleIs p 2 then s else s.backToAuthorized p
  | .done => if s.nozzleIs p 0 then s.setPosState p .idle else s
  | _ => s

/-- The raise the sequencer makes itself on a value of point `i`: OVERPRESSURE, or SENSOR_STALE where `stale` puts it in its
place, or UNCOUPLED where the nozzle has just left a valid COUPLED in PULSE through VENT (R96, R105, R106). -/
def State.ownRaise (s : State) (p : Pos) (i : Nat) (e : PointEntry) (f : Findings) (stale left : Bool) : State :=
  match e.fn with
  | .outletPA | .outletPB => s.pressureRaise p i (s.combined p) f.press stale
  | .nozzle => if left then s.raise p .uncoupled .none false else s
  | _ => s

/-- What a value does besides: evaluation, outlet timers, nozzle (R86, R94, R95, R163).  A nozzle that has just raised
UNCOUPLED does nothing more. -/
def State.takeValue (s : State) (p : Pos) (e : PointEntry) (f : Findings) (left : Bool) : State :=
  match e.fn with
  | .outletPA | .outletPB => s.pressureValue p (s.combined p)
  | .outletT => s.temperatureValue p f.outlet
  | .nozzle => if left then s else s.nozzleValue p
  | _ => s

/-! ## Stages 2 to 4 of a record change (R9) -/

/-- What stages 2 and 3 find for a position point. -/
def State.findings (s : State) (p : Pos) (e : PointEntry) (raised : Bool) : Findings :=
  let pressure := e.fn == .outletPA || e.fn == .outletPB
  let v := if pressure then s.combined p else s.outletT p
  let press := if pressure then s.overLimit p else none
  let outlet := if e.fn = .outletT then s.outletLimit p else none
  let good := match (s.sensor e.fn (.position p)) with
    | some r => r.quality == .good
    | none => false
  { limitWatch := raised && good, watchStale := raised && !good, stale := !(s.stalePoints p).isEmpty,
    disagree := (s.points.pairs.get p).state == .disagree,
    press := press.map (limitOutcome v), outlet := outlet.map (limitOutcome v),
    past := (press.or outlet).any fun limit => decide (limit < v.num) }

/-- A position point's record has changed (R9 stages 3 and 4): clears, then every raise of the hand-over, then the decision
whether a held fill resumes, then the value (R113). -/
def State.positionPoint (s : State) (p : Pos) (i : Nat) (e : PointEntry) (old : LiveRecord) (raised : Bool) : State :=
  let pressure := e.fn == .outletPA || e.fn == .outletPB
  let s := if pressure then s.recombine p else s
  let f := s.findings p e raised
  let stale := s.testAloneStale p f
  let left := e.fn == .nozzle && (s.seq p).state.metered && old.isValid && old.value == 2 && !s.nozzleIs p 2
  let s := ((s.takeConditions p i f).ownRaise p i e f stale left).settleHold p
  s.takeValue p e f left

/-- A raise of a bank or station watch sets the station CONDITION event (R15). -/
def State.stationWatch (s : State) (i : Nat) (r : LiveRecord) (raised : Bool) : State :=
  if raised then
    s.setFlag .condition .station (.stationWatch (if r.quality = .good then .limitWatch else .sensorStale) i)
  else s

/-- A DISCHARGE_T record has changed: crossings and the passage to stale fault the compressor, then the start test
(R142, R148). -/
def State.dischargePoint (s : State) (c : Comp) (old r : LiveRecord) (raised : Bool) : State :=
  let s := if raised then s.faultComp c (if r.quality = .good then .dischargeHot else .dischargeStale) else s
  let s := if old.isValid && !r.isValid then s.faultComp c .dischargeStale else s
  s.schedule

/-- The actuator points that name point `i` as their feedback are compared (R30). -/
def State.feedbackPoint (s : State) (i : Nat) : State :=
  (s.pointsWhere fun e => e.feedback == some i).foldl
    (fun s j =>
      match s.entry j, s.act j with
      | some e, some r => s.compareFeedback j e r
      | _, _ => s)
    s

/-- A changed record is handed to its consumers (R9 stages 3 and 4, R15). -/
def State.handOver (s : State) (i : Nat) (e : PointEntry) (old r : LiveRecord) (raised : Bool) : State :=
  match e.fn, e.scope with
  | .valveFb, _ => s.feedbackPoint i
  | _, .position p => s.positionPoint p i e old raised
  | .bankP, .bank b => (s.stationWatch i r raised).bankReading b r.toValue
  | .dischargeT, .compressor c => s.dischargePoint c old r raised
  | .runFb, .compressor c => s.runFeedback c (r.isValid && r.value == 1)
  | .ambient, .station => (s.stationWatch i r raised).recomputeBand
  | .chillerRun, .station => s.recomputeCapacity
  | .chillerSupplyT, .station => (s.stationWatch i r raised).recomputeCapacity
  | .detector, .station => if r.value = 1 then s.tripSource (.detector i) none else s
  | _, _ => s

/-- A record becomes `r` and goes through the stages; `watched` is off where no watch is evaluated (R7, R9, R14). -/
def State.changeRecord (s : State) (i : Nat) (e : PointEntry) (old r : LiveRecord) (watched : Bool) : State :=
  let (r, raised) := if watched then e.evaluate r else (r, false)
  (s.setRecord i (.sensor r)).handOver i e old r raised

/-- One reading of a SAMPLE frame at its point (R6, R7).  An invalid reading evaluates the watch unless it takes the point
from NEVER to STALE (R14); that R7's "no new condition" does not hold back a raise of that watch is DEDUCED
(notes/assumptions/14.md). -/
def State.takeReading (s : State) (i : Nat) (r : Reading) : State :=
  match s.entry i, s.live i with
  | some e, some old =>
    if e.validReading r then
      s.changeRecord i e old (e.validRecord old (s.valueSet i e) r.value (s.after e.deadline)) true
    else s.changeRecord i e old (e.staleRecord old) (old.freshness != .never)
  | _, _ => s

/-- The point of a (node, channel) pair (R5, R32). -/
def State.pointAt (s : State) (node : Nat) (channel : Word) : Option Nat :=
  match s.site with
  | none => none
  | some t => pointIndices.find? fun i => (t.point i).any fun e => e.node == node && e.channel == channel.toNat

/-- A freshness deadline expires (R8). -/
def State.pointExpired (s : State) (i : Nat) : State :=
  match s.entry i, s.live i with
  | some e, some old => s.changeRecord i e old (e.staleRecord old) true
  | _, _ => s

/-- A discrepancy deadline expires: DISCREPANT, handed over by scope (R30, R148). -/
def State.discrepant (s : State) (i : Nat) : State :=
  match s.entry i, s.act i with
  | some e, some r =>
    let s := s.setRecord i (.actuator { r with matching := .discrepant, discrepancy := none })
    match e.scope with
    | .position p => s.raise p .valveDiscrepancy (.point i) false
    | .compressor c => s.faultComp c .valveDiscrepancy
    | _ => s
  | _, _ => s

end Sys2Proof.Machine
end

