-- ==== Sys2Proof/Machine/HandOver.lean ====
section
/-! DEFINITION. The hand-overs that cross from one block to another within an event, taken first in, first out
(sections 0.4 and 0.5.6; DESIGN CHOICE, notes/assumptions/5.md). -/

namespace Sys2Proof.Machine

/-- One hand-over taken by its receiver. -/
def State.receive (s : State) : HandOver → State
  | .port b => s.portFreed b
  | .service | .serving => s.servicePass
  | .release h => s.takeRelease h
  | .request r => s.takeRequest r
  | .settledPosition p => s.completeSwitch p
  | .settledCompressor c _ => (s.completeSwitching c).schedule
  | .targetTest c => s.targetTest c
  | .tripSetPosition p => s.tripEffect p
  | .tripSetCompressors => s.tripComps
  | .tripCleared => s.schedule

/-- At most `n` hand-overs taken, oldest first. -/
def State.drain : Nat → State → State
  | 0, s => s
  | n + 1, s =>
    match s.handOvers with
    | [] => s
    | h :: l => ({ s with handOvers := l }.receive h).drain n

/-- Every hand-over of the event taken, and none left (DESIGN CHOICE, notes/assumptions/5.md). -/
def State.settle (s : State) : State := { s.drain Config.handOverFuel with handOvers := [] }

/-- The readings of a SAMPLE frame, each through all its stages before the next (R5). -/
def State.takeSample (s : State) (src : NodeAddr) (l : List Reading) : State :=
  l.foldl
    (fun s r =>
      match s.pointAt src.toNat r.channel with
      | some i => (s.takeReading i r).settle
      | none => s)
    s

/-- One event: the event itself, and its hand-overs. -/
def State.runEvent (s : State) (body : State → State) : State := (body s).settle

end Sys2Proof.Machine
end

