-- ==== Sys2Proof/Machine/Fill.lean ====
section
/-! DEFINITION. The position sequencer's timers and requests, the vehicle data link and the meter intake
(R76 to R83, R92, R94, R98 to R101, R116 to R124, R169 to R171). -/

namespace Sys2Proof.Machine

/-! ## Timers of the fill -/

/-- The couple timer expires: the fill is cancelled and AUTH_EXPIRED set (R76). -/
def State.coupleExpired (s : State) (p : Pos) : State :=
  if (s.seq p).state = .authorized then
    let n := (s.seq p).sale.getD 0
    (s.cancelFill p .expired).setFlag .authExpired (.position p) (.sale n)
  else s

/-- The hold-limit timer expires (R81, R92). -/
def State.holdExpired (s : State) (p : Pos) : State :=
  match (s.seq p).state with
  | .admitting => s.cancelFill p .noSupply
  | .switch | .hold => s.endFill p .holdExpired none
  | _ => s

/-- The open phase of the pulse ends (R82). -/
def State.openEnd (s : State) (p : Pos) : State :=
  let s := s.writeFill p 0
  let d := s.after (s.header p).pulseSettle
  let ps := s.combined p
  s.mapSeq p fun q => { q with settleP := some ps, pulse := some d, phase := .settling }

/-- The leak test of the end of settle (R83 step 2). -/
def State.leakTest (s : State) (p : Pos) (p0 : Value) : State :=
  match (s.seq p).settleP with
  | some ps =>
    if ps.valid ∧ ((s.header p).leakLimit : Int) < ps.num - p0.num then s.raise p .leak (.fall (ps.num - p0.num)) false
    else s
  | none => s

/-- A link mode still PENDING becomes NON_COMMUNICATED with cause NEVER (R119). -/
def LinkState.settleMode (l : LinkState) : LinkState :=
  if l.mode = .pending then { l with mode := .nonCommunicated, cause := some .never } else l

/-- The settle phase of the pulse ends: the checks in order, then RAMP (R83). -/
def State.settleEnd (s : State) (p : Pos) : State :=
  let p0 := s.combined p
  let s := s.mapSeq p fun q => { q with pulse := none, initialP := some p0 }
  if !p0.valid then s.endFill p .noPressure none
  else
    let s := s.leakTest p p0
    if (s.seq p).state ≠ .pulse then s
    else if p0.num < (s.header p).minInitial then s.endFill p .initialPressure none
    else if (s.endTarget p : Int) ≤ p0.num then s.endFill p .full none
    else (s.mapSeq p fun q => { q with link := q.link.map LinkState.settleMode }).enterRamp p p0

/-- The vent timer expires (R94). -/
def State.ventExpired (s : State) (p : Pos) : State :=
  let s := s.mapSeq p fun q => { q with ventTimer := none }
  let s := s.raise p .ventTimeout .none false
  if (s.seq p).state = .vent then s.finishVent p else s

/-! ## Stop, disable, enable, reset (R98 to R100) -/

/-- OUT_OF_SERVICE is entered: OVERPRESSURE leaves the active level set without a clear (R98, R106). -/
def State.disablePosition (s : State) (p : Pos) : State :=
  (s.mapSeq p fun q => { q with active := q.active.put .overpressure false }).setPosState p .outOfService

/-- Steps 1 to 4 of a position's reset (R100).  Neither R100 nor R97 has the VENT_VALVE written when VENT is left so: its
AUTO value stays open until the end of a later VENT (DESIGN CHOICE, notes/assumptions/48.md). -/
def State.resetSteps (s : State) (p : Pos) (reason : EndReason) : State :=
  let s := s.endRecord p reason none
  let s := (s.leaveAll p).mapSeq p Seq.cleared
  s.setPosState p (if s.nozzleIs p 0 then .idle else .done)

/-- A position is reset (R19, R39, R100). -/
def State.resetPosition (s : State) (p : Pos) : State :=
  let s := (s.resetSteps p .reset).rearmWatches p
  let l := s.actuatorsOf (.position p)
  l.foldl State.freshMatch (s.resolvePoints l)

/-! ## The vehicle data link -/

/-- The link state of a fill changed. -/
def State.mapLink (s : State) (p : Pos) (f : LinkState → LinkState) : State :=
  s.mapSeq p fun q => { q with link := q.link.map f }

/-- A frame belongs to the position: it is taken in ADMIT, the FLOWING states and VENT (R116). -/
def State.takesLink (s : State) (p : Pos) (src : NodeAddr) : Bool :=
  ((s.posSite p).any fun t => t.link != 0 && t.link == src.toNat) &&
    ((s.seq p).state == .admitting || (s.seq p).state.metered)

/-- The link values become INVALID: the substitutes of their HIGH lean, and the SOC with its number kept (R117, R120).  R120 names
the number alone; the SOC keeps its CLAMPED mark too (DESIGN CHOICE, notes/assumptions/55.md). -/
def LinkState.invalidate (l : LinkState) : LinkState :=
  { l with pressure := some (Value.substitute 10000), temp := some (Value.substitute 1000),
           soc := l.soc.map fun v => { v with quality := .invalid } }

/-- A received number in its range, GOOD, marked CLAMPED when it was outside (R116). -/
def receivedValue (lo hi v : Int) : Value := ⟨clampInt lo hi v, .good, decide (clampInt lo hi v ≠ v)⟩

/-- The values of a valid frame stored, with the link timer and the mode (R116, R118, R119).  A mode that is still PENDING
in VENT, the fill having ENDed before the end of its pulse settle, becomes COMMUNICATED there too, as R118 step 1 puts it
(DESIGN CHOICE, notes/assumptions/37.md). -/
def LinkState.receive (l : LinkState) (pressure temp : Value) (timer : Count) : LinkState :=
  { l with pressure := some pressure, temp := some temp, lastPress := some pressure.num, lastTemp := some temp.num,
           timer := some timer, mode := if l.mode = .pending then .communicated else l.mode }

/-- The reference density of a class held with a GAS slot (R44, R45). -/
def Slot.heldReference (g : Slot) (k : DispClass) : Nat :=
  match g.refs, k with
  | some (a, _), .h70 => a
  | some (_, b), .h35 => b
  | none, k => g.reference k

/-- The SOC computed from the tank values as they stand (R46, R118). -/
def State.computeSoc (s : State) (p : Pos) : State :=
  match s.boundGas p with
  | none => s
  | some g =>
    let ref := g.heldReference (s.cls p)
    s.mapLink p fun l =>
      match l.pressure, l.temp with
      | some a, some b => { l with soc := some (stateOfCharge (g.density a b) ref) }
      | _, _ => l

/-- The fall-back to a non-communicated fill (R124). -/
def State.fallBack (s : State) (p : Pos) (cause : LinkCause) : State :=
  let s := s.mapLink p fun l => { l.invalidate with mode := .nonCommunicated, cause := some cause }
  let s := s.mapSale p fun r => { r with marks := { r.marks with linkLost := true } }
  let s := s.setFlag .linkLost (.position p) (.linkCause cause)
  let past := match (s.seq p).lastP with
    | some v => v.valid && decide (((s.combination p).endPress : Int) ≤ v.num)
    | none => false
  if (s.seq p).state = .ramp ∧ past = true then s.endFill p .linkLostEnd none else s

/-- Step 1 of a taken frame (R118). -/
def State.linkValues (s : State) (p : Pos) (pressure temp : Word) : Status → State
  | .ok =>
    let d := s.after (s.header p).linkTimeout
    let v := receivedValue 0 10000 pressure.toNat
    let t := receivedValue (-600) 1000 (signedWord temp)
    (s.mapLink p fun l => l.receive v t d).computeSoc p
  | .fault =>
    let was := (s.seq p).communicated
    let s := (s.mapLink p LinkState.invalidate).computeSoc p
    if was then s.fallBack p .fault else s

/-- Step 2: the TANK_HOT test (R121). -/
def State.tankTest (s : State) (p : Pos) : State :=
  match (s.seq p).link.bind LinkState.temp with
  | none => s
  | some t =>
    if t.num ≤ (s.header p).tankTempMax then s
    else if t.valid then s.raise p .tankHot (.value t.num) false
    else s.raise p .sensorStale .none false

/-- Step 3: the vehicle command stored and applied (R122).  It is stored in VENT also where the TANK_HOT of the same frame
has just ENDed the fill: R122's column for VENT is followed there (R118; DESIGN CHOICE, notes/assumptions/37.md). -/
def State.vehicleStep (s : State) (p : Pos) (c : VehicleCommand) : State :=
  let s := s.mapLink p fun l => { l with command := c }
  let t := (s.seq p).state
  match c with
  | .run => if t.flowing then s.removeCause p .vehicle else s
  | .halt => if t.flowing then s.addCause p .vehicle else s
  | .abort =>
    if t = .admitting then s.cancelFill p .cancelled
    else if t.flowing then s.endFill p .vehicleAbort none
    else s

/-- Step 4: the agreement test (R123). -/
def State.agreementStep (s : State) (p : Pos) : State :=
  if (s.seq p).state = .ramp ∧ (s.seq p).communicated then
    match (s.seq p).link.bind LinkState.pressure, (s.seq p).lastP with
    | some a, some b =>
      if a.valid ∧ b.valid ∧ (s.header p).linkTol < (a.num - b.num).natAbs then s.fallBack p .disagree else s
    | _, _ => s
  else s

/-- Step 5: the SOC end check (R123). -/
def State.socStep (s : State) (p : Pos) : State :=
  if (s.seq p).state = .ramp ∧ (s.seq p).communicated then
    match (s.seq p).link.bind LinkState.soc with
    | some v => if v.valid ∧ ((s.header p).socEnd : Int) ≤ v.num then s.endFill p .full none else s
    | none => s
  else s

/-- A LINK frame taken at a position (R118). -/
def State.takeLinkAt (s : State) (p : Pos) (src : NodeAddr) (pressure temp : Word) (st : Status)
    (c : VehicleCommand) : State :=
  if s.takesLink p src then
    let s := (s.linkValues p pressure temp st).tankTest p
    ((s.vehicleStep p c).agreementStep p).socStep p
  else s

/-- The link timer expires (R120). -/
def State.linkExpired (s : State) (p : Pos) : State :=
  let was := (s.seq p).communicated
  let s := s.mapLink p fun l => { l.invalidate with timer := none }
  if was then s.fallBack p .timeout else s

/-! ## The meter -/

/-- The intake record of a position changed. -/
def State.mapIntake (s : State) (p : Pos) (f : Intake → Intake) : State :=
  s.mapSales fun u => { u with intake := u.intake.modify p f }

/-- The position's FILL_VALVE stands effective above 0 (R170). -/
def State.fillOpen (s : State) (p : Pos) : Bool :=
  ((s.findPoint .fillValve (.position p)).bind s.act).any fun r => decide (0 < r.effective)

/-- The interval mark at the end of a taken TOTAL frame (R170). -/
def State.markInterval (s : State) (p : Pos) : State :=
  let i := if s.fillOpen p then Interval.gasOpen else .gasClosed
  s.mapIntake p fun n => { n with interval := i }

/-- A meter passes from HEALTHY to FAULTY: METER_FAULT (R169, R171). -/
def State.meterFaulty (s : State) (p : Pos) (d : RaiseDetail) : State :=
  if (s.sales.intake.get p).healthy then
    (s.mapIntake p fun n => { n with healthy := false }).raise p .meterFault d false
  else s

/-- A fault case of a TOTAL frame (R169).  METER_SUSPECT is set before METER_FAULT is raised, here and at a stale meter, so that
the record is marked also where the reaction closes it (DESIGN CHOICE, notes/assumptions/40.md). -/
def State.meterFaultCase (s : State) (p : Pos) (delta : Option Nat) (st : Status) : State :=
  ((s.markInterval p).markSuspect p).meterFaulty p (.meter delta st)

/-- The gross mass of a record with a delta, saturating (R170). -/
def SaleRecord.addGross (r : SaleRecord) (delta : Nat) : SaleRecord :=
  { r with gross := min (r.gross + delta) Config.grossMax,
           marks := { r.marks with clamped := r.marks.clamped || decide (Config.grossMax < r.gross + delta) } }

/-- A new gross mass reaches the sequencer: PRESET at the threshold (R88). -/
def State.grossTold (s : State) (p : Pos) : State :=
  match s.saleOf p, (s.seq p).threshold with
  | some r, some t => if t ≤ r.gross then s.endFill p .preset none else s
  | _, _ => s

/-- An OPEN record in PULSE through VENT counts gas (R170). -/
def State.counting (s : State) (p : Pos) : Bool :=
  (s.seq p).state.metered && (s.saleOf p).any fun r => r.state == .opened

/-- A classified delta (R170). -/
def State.classifyDelta (s : State) (p : Pos) (delta creep : Nat) : State :=
  match (s.sales.intake.get p).interval with
  | .gasClosed =>
    let s := s.markInterval p
    if creep < delta then s.raise p .meterWhileClosed (.meter (some delta) .ok) false else s
  | .gasOpen =>
    if s.counting p then
      ((s.mapSale p fun r => r.addGross delta).markInterval p).grossTold p
    else s.markInterval p

/-- A TOTAL frame taken at a position (R169). -/
def State.takeTotalAt (s : State) (p : Pos) (src : NodeAddr) (totaliser : Word) (st : Status) : State :=
  match s.posSite p with
  | none => s
  | some site =>
    if site.meter ≠ 0 ∧ site.meter = src.toNat then
      let d := s.after site.meterTime
      let old := (s.sales.intake.get p).baseline
      let s := s.mapIntake p fun n => { n with freshness := .fresh, deadline := some d }
      match st, old with
      | .fault, _ => s.meterFaultCase p none .fault
      | .ok, none => (s.mapIntake p fun n => { n with baseline := some totaliser, healthy := true }).markInterval p
      | .ok, some b =>
        let delta := (totaliser - b).toNat
        let s := s.mapIntake p fun n => { n with baseline := some totaliser }
        match s.headerFor p with
        | none => s.markInterval p
        | some h =>
          if h.meterDelta < delta then s.meterFaultCase p (some delta) .ok
          else (s.mapIntake p fun n => { n with healthy := true }).classifyDelta p delta h.creep
    else s

/-- A meter intake deadline expires (R171); METER_SUSPECT is set before the raise (DESIGN CHOICE, notes/assumptions/40.md). -/
def State.meterExpired (s : State) (p : Pos) : State :=
  let s := s.mapIntake p fun n => { n with freshness := .stale, deadline := none }
  if (s.sales.intake.get p).healthy then (s.markSuspect p).meterFaulty p .meterStale else s

end Sys2Proof.Machine
end

