-- ==== Sys2Proof/Machine/Validate.lean ====
section
/-! DEFINITION. Validation of a slot's content at activation: every entry in increasing order, the first that fails
(R61 to R64, R69 to R72, R125, R142, R153, R168, R190). -/

namespace Sys2Proof.Machine

/-- The checks of one entry in the order they are made, each with whether it holds. -/
abbrev EntryChecks := List (CheckName × Bool)

/-- The first failing entry of a list of entries with their checks (R61). -/
def firstFailure (l : List (Nat × EntryChecks)) : Option (Nat × CheckName) :=
  l.findSome? fun (n, cs) => (cs.find? fun (_, ok) => !ok).map fun (c, _) => (n, c)

/-- A natural number within a range, both ends included. -/
def natIn (lo hi n : Nat) : Bool := lo ≤ n && n ≤ hi

/-- An integer within a range, both ends included. -/
def intIn (lo hi n : Int) : Bool := lo ≤ n && n ≤ hi

/-- A temperature within the range of section 0.5.1 (R70, R153). -/
def tempOk (n : Int) : Bool := intIn (-600) 1000 n

/-! ## GAS (R62) -/

/-- Checks of grid entry D[i][j]. -/
def Slot.gasChecks (s : Slot) (i j : Nat) : EntryChecks :=
  [(.gridZero, i == 0 || s.grid i j != 0),
   (.gridPressure, i == 0 || s.grid (i - 1) j ≤ s.grid i j),
   (.gridTemperature, i == 0 || j == 0 || s.grid i j ≤ s.grid i (j - 1))]

/-- Every GAS entry with its checks. -/
def Slot.gasEntries (s : Slot) : List (Nat × EntryChecks) :=
  (List.range 697).map fun n => (n, s.gasChecks (n / 17) (n % 17))

/-! ## TARIFF (R63) -/

/-- Checks of a start minute. -/
def Slot.startChecks (s : Slot) (b : Nat) : EntryChecks :=
  if b = 0 then [(.start, s.bandStart 0 == 0)]
  else [(.startOrder, s.bandStart (b - 1) < s.bandStart b && s.bandStart b < 1440)]

/-- Every entry of a TARIFF slot with its checks. -/
def Slot.tariffEntries (s : Slot) : List (Nat × EntryChecks) :=
  (List.range 73).map fun n =>
    if n = 72 then (n, [(.range, s.rounding ≤ 1)])
    else
      let b := n / 9
      let k := n % 9 - 1
      if n % 9 = 0 then (n, s.startChecks b)
      else (n, [(.range, s.price b (if k < 4 then .h70 else .h35) (k % 4) ≤ 999999)])

/-! ## PROTOCOL (R69 to R72) -/

/-- Ranges of a class header; the relations between its pressures are left to PRESSURE_ORDER (DESIGN CHOICE,
notes/assumptions/15.md). -/
def ClassHeader.inRange (h : ClassHeader) (c : DispClass) : Bool :=
  h.maxLimit ≤ 10000 && natIn 1 1500 h.socEnd && tempOk h.tankTempMax && natIn 1 h.openLimit h.pulseOpening &&
  natIn 200 5000 h.pulseOpen && natIn 1000 10000 h.pulseSettle && h.leakLimit ≤ 1000 && h.rampDelay ≤ 30000 &&
  natIn 1 8 h.conformanceN && natIn 1 255 h.gain && natIn 1 200 h.maxStep && natIn 1 1000 h.openLimit &&
  h.switchDiff ≤ 2000 && h.anticipation ≤ 2000 && h.minSale ≤ h.maxSale &&
  natIn 1 (if c = .h70 then 12000 else 80000) h.maxSale && natIn 1 65535 h.meterDelta && h.creep ≤ 1000 &&
  h.sensorTol ≤ 1000 && natIn 200 5000 h.linkTimeout && h.linkTol ≤ 2000 && natIn 5000 300000 h.holdLimit &&
  natIn 10000 600000 h.couple && h.ventDone ≤ 1000 && natIn 1000 60000 h.ventTimeout && h.catSettle ≤ 60000 &&
  h.catGrace ≤ 60000

/-- Checks of a class header (R69). -/
def Slot.headerChecks (s : Slot) (c : DispClass) : EntryChecks :=
  let h := s.header c
  [(.range, h.inRange c), (.nominal, h.nominal == c.nominal),
   (.pressureOrder, h.minInitial < h.nominal && h.nominal < h.cap && h.cap < h.maxLimit)]

/-- Strictly ascending. -/
def ascending : List Int → Bool
  | a :: b :: l => a < b && ascending (b :: l)
  | _ => true

/-- Checks of the ambient band edges (R70). -/
def Slot.edgeChecks (s : Slot) : EntryChecks :=
  [(.range, s.bandEdges.all tempOk), (.bandOrder, ascending s.bandEdges)]

/-- Checks of the category limits and the margin (R70). -/
def Slot.limitChecks (s : Slot) : EntryChecks :=
  let l := allCategories.map s.categoryLimit
  [(.range, l.all tempOk && s.margin ≤ 200), (.categoryOrder, ascending l)]

/-- Checks of a combination entry (R71). -/
def Slot.combinationChecks (s : Slot) (c : DispClass) (b : Nat) (k : Category) : EntryChecks :=
  let e := s.combination c b k
  let h := s.header c
  [(.range, e.aprr ≤ 2000 && e.tolAbove ≤ 1000 && e.tolBelow ≤ 1000),
   (.pressureOrder, h.minInitial < e.endPress && e.endPress ≤ h.cap)]

/-- Every entry of a PROTOCOL slot with its checks. -/
def Slot.protocolEntries (s : Slot) : List (Nat × EntryChecks) :=
  [(0, s.headerChecks .h70), (1, s.headerChecks .h35), (2, s.edgeChecks), (3, s.limitChecks)] ++
    (List.range 36).map fun n =>
      let r := n % 6
      let k := match r % 3 with
        | 0 => Category.t40
        | 1 => .t30
        | _ => .t20
      (4 + n, s.combinationChecks (if r < 3 then .h70 else .h35) (n / 6) k)

/-! ## SITE (R64) -/

/-- A scope suits a function (R2, R20). -/
def Fn.scopeOk (f : Fn) : EventScope → Bool
  | .station =>
    f == .ambient || f == .chillerRun || f == .chillerSupplyT || f == .detector || f == .chillerSetpoint || f == .valveFb
  | .position _ =>
    f == .outletPA || f == .outletPB || f == .outletT || f == .nozzle || f == .fillValve || f == .ventValve ||
      f == .bankValve || f == .valveFb
  | .compressor _ => f == .dischargeT || f == .runFb || f == .compRun || f == .dischargeValve || f == .valveFb
  | .bank _ => f == .bankP || f == .valveFb

/-- Ranges of a sensor entry's own fields, with value set `range` (R1, R2). -/
def PointEntry.sensorInRange (e : PointEntry) (range : Int × Int) (watchWord : Nat) : Bool :=
  let (lo, hi) := range
  natIn 100 60000 e.deadline && (e.fn.kind == .analogue || intIn lo hi e.stale) &&
    (e.fn.kind != .analogue || watchWord ≤ 1) &&
    match e.watch with
    | some (limit, hyst) => intIn lo hi limit && hyst ≤ 1000
    | none => true

/-- Ranges of an actuator entry's own fields (R20, R21). -/
def PointEntry.actInRange (e : PointEntry) (propWord : Nat) : Bool :=
  let (lo, hi) := e.actRange
  ((e.fn != .bankValve && e.fn != .dischargeValve) || e.bank < 6) && (e.fn == .chillerSetpoint || propWord ≤ 1) &&
    intIn lo hi e.safe && natIn 200 5000 e.refresh && (e.feedback.isNone || natIn 500 30000 e.discTime)

/-- Ranges of point entry `i` (R1, R2, R20).  A word of a field that a point of its kind does not have is not looked at
(section 12.10; DESIGN CHOICE, notes/assumptions/50.md). -/
def Slot.pointInRange (s : Slot) (i : Nat) : Bool :=
  if (s.pointWord i 2).toNat = 0 then true
  else
    match s.point i with
    | none => false
    | some e =>
      natIn 1 254 e.node && e.channel ≤ 3 && e.fn.scopeOk e.scope &&
        if e.fn.isSensor then e.sensorInRange (s.valueSet i e) (s.pointWord i 6).toNat else e.actInRange (s.pointWord i 10).toNat

/-- The form of a point by its function (R64, POINT_FORM); `earlier` are the entries below it. -/
def PointEntry.formOk (e : PointEntry) (earlier : List PointEntry) : Bool :=
  match e.fn with
  | .nozzle => e.stale == 1
  | .fillValve => e.prop && e.safe == 0
  | .compRun => !e.prop
  | .bankValve | .dischargeValve => earlier.all fun d => !(d.fn == e.fn && d.scope == e.scope && d.bank == e.bank)
  | _ => true

/-- An actuator's feedback index `j` names a VALVE_FB entry of the same scope (R64). -/
def feedbackOk (l : List (Option PointEntry)) (e : PointEntry) (j : Nat) : Bool :=
  (l.getD j none).any fun f => f.fn == .valveFb && f.scope == e.scope

/-- The FEEDBACK check as it is reported at entry `i`: at the higher of an actuator and the entry it names (R61), and at the
VALVE_FB entry itself where it is not named exactly once, also where both of its actuators stand above it (DESIGN CHOICE,
notes/assumptions/15.md).  `names` are the feedback points named by the entries, those out of range in another field
included (R64). -/
def feedbackCheck (l : List (Option PointEntry)) (names : List (Option Nat)) (i : Nat) : Bool :=
  match l.getD i none with
  | none =>
    (l.zipIdx).all fun (d, k) => !(d.any fun d => d.feedback == some i && k < i)
  | some e =>
    (match e.feedback with
      | some j => (j < 192 && i < j) || feedbackOk l e j
      | none => true) &&
    ((l.zipIdx).all fun (d, k) => !(d.any fun d => d.feedback == some i && k < i && !feedbackOk l d i)) &&
    (e.fn != .valveFb || (names.countP fun n => n == some i) == 1)

/-- Checks of point entry `i`. -/
def Slot.pointChecks (s : Slot) (l : List (Option PointEntry)) (names : List (Option Nat)) (strap i : Nat) : EntryChecks :=
  let earlier := (l.take i).filterMap id
  let e := l.getD i none
  [(.range, s.pointInRange i),
   (.duplicatePoint, !(e.any fun e => e.node == strap || earlier.any fun d => d.node == e.node && d.channel == e.channel)),
   (.pointForm, !(e.any fun e => !e.formOk earlier)),
   (.feedback, feedbackCheck l names i)]

/-- Exactly one entry of each function has the scope (R64, REQUIRED_POINT). -/
def oneEach (l : List (Option PointEntry)) (fns : List Fn) (sc : EventScope) : Bool :=
  fns.all fun f => (l.countP fun e => e.any fun e => e.fn == f && e.scope == sc) == 1

/-- Checks of a bank record (R64, R125). -/
def Slot.bankChecks (s : Slot) (b : Nat) : EntryChecks :=
  let k := s.bankSite b
  [(.range, s.nat 48 (6 * b) ≤ 2 && natIn 1 10000 k.ceiling && k.restart ≤ 10000 && k.critical ≤ 10000),
   (.drawPorts, natIn 1 2 k.drawPorts), (.bankThresholds, k.critical < k.restart && k.restart < k.ceiling)]

/-- Distinct elements. -/
def distinct : List Nat → Bool
  | [] => true
  | a :: l => !l.contains a && distinct l

/-- Checks of a bank sequence (R64); the words beyond its count are not looked at (DESIGN CHOICE,
notes/assumptions/50.md). -/
def Slot.sequenceChecks (s : Slot) (k : DispClass) : EntryChecks :=
  let n := s.nat 48 (36 + 7 * k.index)
  let ids := (List.range (min n 6)).map fun m => s.nat 48 (37 + 7 * k.index + m)
  [(.sequence, natIn 1 6 n && ids.all (· < 6) && distinct ids)]

/-- Checks of a compressor record (R64, R142). -/
def Slot.compChecks (s : Slot) (l : List (Option PointEntry)) (c : Comp) : EntryChecks :=
  let k := s.compSite c.val
  [(.range, natIn 1000 60000 k.startTimeout && k.minRun ≤ 3600000 && k.minOff ≤ 3600000),
   (.requiredPoint, oneEach l [.compRun, .runFb, .dischargeT] (.compressor c))]

/-- Checks of the chiller and station record (R64, R153, R190). -/
def Slot.stationChecks (s : Slot) (l : List (Option PointEntry)) (strap : Nat) : EntryChecks :=
  let k := s.station
  [(.range, tempOk k.supplyLimit && tempOk k.idleSet && natIn 1 254 k.supervisor && k.beaconLimit ≤ 1440),
   (.requiredPoint, oneEach l [.ambient, .chillerRun, .chillerSupplyT, .chillerSetpoint] .station),
   (.supervisor, k.supervisor != strap)]

/-- Checks of a position record (R64, R168). -/
def Slot.positionChecks (s : Slot) (l : List (Option PointEntry)) (p : Pos) : EntryChecks :=
  let k := s.posSite p
  [(.range, s.nat 51 (6 * p.val) ≤ 1 && k.link ≤ 254 && k.terminal ≤ 254 && k.meter ≤ 254 && natIn 100 60000 k.meterTime),
   (.requiredPoint,
     oneEach l [.outletPA, .outletPB, .outletT, .nozzle, .fillValve, .ventValve] (.position p))]

/-- Every entry of a SITE slot with its checks. -/
def Slot.siteEntries (s : Slot) (strap : Nat) : List (Nat × EntryChecks) :=
  let l := pointIndices.map s.point
  let names := pointIndices.map s.names
  (pointIndices.map fun i => (i, s.pointChecks l names strap i)) ++
    ([0, 1, 2, 3, 4, 5].map fun b => (192 + b, s.bankChecks b)) ++
    [(198, s.sequenceChecks .h70), (199, s.sequenceChecks .h35)] ++
    (twoIndices.map fun c => (200 + c.val, s.compChecks l c)) ++ [(202, s.stationChecks l strap)] ++
    (sixIndices.map fun p => (203 + p.val, s.positionChecks l p))

/-- The first failing entry of a slot's content with its check; none when the slot passes validation (R61). -/
def Slot.validate (s : Slot) (k : TableKind) (strap : Nat) : Option (Nat × CheckName) :=
  firstFailure <|
    match k with
    | .gas => s.gasEntries
    | .protocol => s.protocolEntries
    | .tariff => s.tariffEntries
    | .site => s.siteEntries strap

end Sys2Proof.Machine
end

