-- ==== Sys2Proof/Machine/RingIn.lean ====
section
/-! DEFINITION. Arrival at ring-in: forwarding, stripping, consuming, the command filter, the taking and answering of
requests (R32, R186 to R188, R191, R192). -/

namespace Sys2Proof.Machine

/-! ## Frames -/

/-- Words of a reading in a SAMPLE frame (section 12.10). -/
def Reading.words (r : Reading) : List Word := [r.channel, if r.status = .fault then 1 else 0, r.value]

/-- A status word (section 12.10). -/
def statusWord : Status → Word
  | .ok => 0
  | .fault => 1

/-- A SAMPLE frame (section 12.10). -/
def sampleFrame (h : Header) (l : List Reading) : Frame :=
  ⟨h, 1, BitVec.ofNat 16 l.length :: l.flatMap Reading.words⟩

/-- A TOTAL frame (section 12.10). -/
def totalFrame (h : Header) (totaliser : Word) (st : Status) : Frame := ⟨h, 2, [totaliser, statusWord st]⟩

/-- A COMMAND frame (section 12.10). -/
def commandFrame (h : Header) (channel value : Word) : Frame := ⟨h, 3, [channel, value]⟩

/-- A LINK frame (section 12.10). -/
def linkFrame (h : Header) (pressure temp : Word) (st : Status) (c : Word) : Frame :=
  ⟨h, 4, [pressure, temp, statusWord st, c]⟩

/-- A PAY frame (section 12.10). -/
def payFrame (h : Header) (payload : List Word) : Frame := ⟨h, 5, payload⟩

/-- An MREQ frame (section 12.10). -/
def mreqFrame (h : Header) (code : Word) (content : List Word) : Frame := ⟨h, 8, code :: content⟩

/-- A BEACON frame (section 12.10). -/
def beaconFrame (h : Header) (day minute milli : Word) : Frame := ⟨h, 11, [day, minute, milli]⟩

/-! ## Arrival (R186 to R188) -/

/-- A frame joins the back of the forwarding buffer where it has a place (R188). -/
def State.accept (s : State) (f : Frame) : Option State :=
  if s.ring.forwarding.length < Config.forwardingPlaces then
    some (s.mapRing fun r => { r with forwarding := r.forwarding ++ [f] }.arbitrate)
  else none

/-- A frame the part forwards, or drops whole where the buffer is full; `take` follows an accepted frame (R187, R188). -/
def State.forwardThen (s : State) (f : Frame) (take : State → State) : State :=
  match s.accept f with
  | some t => take t
  | none => s.dropFrame

/-- A frame the part only forwards (R187, R188). -/
def State.pass (s : State) (f : Frame) : State := s.forwardThen f fun t => t

/-- What R187 does before it looks at kind and destination: an unaddressed part forwards everything, and an own frame is
stripped (R186, R187). -/
def State.ringIn (s : State) (f : Frame) (handle : State → State) : State :=
  if !s.addressed then s.pass f else if f.hdr.src = s.ring.strap then s else handle s

/-- SAMPLE, TOTAL and LINK: consumed or forwarded, and copied inward (R187). -/
def State.copyIn (s : State) (f : Frame) (take : State → State) : State :=
  s.ringIn f fun s => if f.hdr.dst = s.ring.strap then take s else s.forwardThen f take

/-- BEACON: taken from the strap address and from 255, forwarded unless consumed (R187). -/
def State.beaconIn (s : State) (f : Frame) (take : State → State) : State :=
  s.ringIn f fun s =>
    if f.hdr.dst = s.ring.strap then take s else if f.hdr.dst = 255 then s.forwardThen f take else s.pass f

/-- A frame of no kind the part takes: discarded at the strap address, forwarded otherwise (R187). -/
def State.otherIn (s : State) (f : Frame) : State :=
  s.ringIn f fun s => if f.hdr.dst = s.ring.strap then s else s.pass f

/-! ## The command filter (R32) -/

/-- The actuator point of a (node, channel) pair (R32). -/
def State.actuatorAt (s : State) (node : Nat) (channel : Word) : Option Nat :=
  (s.pointAt node channel).filter fun i => (s.act i).isSome

/-- A foreign COMMAND at the filter: removed and reported at an AUTO or SAFE point, otherwise forwarded, and snooped at
a MANUAL one (R32). -/
def State.filterCommand (s : State) (f : Frame) (channel value : Word) : State :=
  match s.actuatorAt f.hdr.dst.toNat channel with
  | none => s.pass f
  | some i =>
    match s.entry i, s.act i with
    | some e, some r =>
      if r.owner = .manual then
        s.forwardThen f fun t => t.snoopManual i e r (e.clampAct (e.fn.valueOfWord value))
      else s.setFlag .commandBlocked .station (.point i)
    | _, _ => s.pass f

/-- COMMAND from another node (R187, R188, R32). -/
def State.commandIn (s : State) (f : Frame) (channel value : Word) : State :=
  s.ringIn f fun s =>
    if f.hdr.dst = s.ring.strap then s
    else if f.hdr.dst = 255 then s.pass f
    else if s.ring.forwarding.length < Config.forwardingPlaces then s.filterCommand f channel value
    else s.dropFrame

/-! ## Requests (R191, R192) -/

/-- An MREQ or PAY frame for the part: taken where the response queue has a place, which its answer then fills, and
otherwise discarded and counted (R187, R191, R192). -/
def State.requestIn (s : State) (f : Frame) (take : State → State) : State :=
  s.ringIn f fun s =>
    if f.hdr.dst = s.ring.strap then
      if s.ring.hasPlace then take (s.mapRing fun r => { r with answering := true })
      else s.mapRing fun r => { r with discards := min (r.discards + 1) 65535 }
    else s.pass f

/-- The answer of the request under way fills its place (R191, R192). -/
def State.fill (s : State) (r : Response) : State :=
  (s.mapRing fun g => { g with answering := false }).placeResponse r

/-- The MRESP of a request (R191). -/
def State.answer (s : State) (h : Header) (code : Nat) (res : Result) (clamped : Bool) (c : Content) : State :=
  s.fill (.mresp h.src h.tag (BitVec.ofNat 16 code) res clamped c)

/-- An MRESP OK with nothing to carry. -/
def State.answerOk (s : State) (h : Header) (code : Nat) : State := s.answer h code .ok false .none

/-- A refusal: nothing but the response (R191). -/
def State.refuse (s : State) (h : Header) (code : Nat) (res : Result) : State := s.answer h code res false .none

/-- The request's source is not the supervisor address of the ACTIVE SITE slot (R191 step 2). -/
def State.notSupervisor (s : State) (h : Header) : Bool :=
  s.station.any fun t => t.supervisor != h.src.toNat

/-- The request code of an MREQ's payload; a payload of no words carries none, and the code of its MRESP is a free value
(R191; DESIGN CHOICE, notes/assumptions/34.md). -/
def requestCode (h : Header) : List Word → Word
  | code :: _ => code
  | [] => Config.absentCode h.src h.tag

/-- An MREQ with a payload; `body` carries it out and answers it (R191). -/
def State.payloadIn (s : State) (h : Header) (payload : List Word) (body : State → State) : State :=
  s.requestIn ⟨h, 8, payload⟩ fun s =>
    if s.notSupervisor h then s.refuse h (requestCode h payload).toNat .notSupervisor else body s

/-- An MREQ with a request code and content (R191). -/
def State.mreqIn (s : State) (h : Header) (code : Word) (content : List Word) (body : State → State) : State :=
  s.payloadIn h (code :: content) body

/-- The PAY_RESULT of a PAY frame (R172). -/
def State.answerPay (s : State) (h : Header) (request position : Word) (reference : BitVec 32) (res : Result)
    (clamped : Bool) (g : Option Grant) : State :=
  s.fill (.payResult h.src request position reference res clamped g)

/-- A request on a position that needs an ACTIVE SITE slot: ARG, then NO_TABLE (R98 to R101). -/
def State.onPosition (s : State) (h : Header) (code : Nat) (w : Word) (body : Pos → State → State) : State :=
  match positionOfWord w with
  | none => s.refuse h code .arg
  | some p => if s.site.isNone then s.refuse h code .noTable else body p s

/-- A request on a bank that needs an ACTIVE SITE slot: ARG, then NO_TABLE (R136). -/
def State.onBank (s : State) (h : Header) (code : Nat) (w : Word) (body : Bank → State → State) : State :=
  match bankOfWord w with
  | none => s.refuse h code .arg
  | some b => if s.site.isNone then s.refuse h code .noTable else body b s

/-- A request on a compressor that needs an ACTIVE SITE slot: ARG, then NO_TABLE (section 9.4). -/
def State.onCompressor (s : State) (h : Header) (code : Nat) (w : Word) (body : Comp → State → State) : State :=
  match compressorOfWord w with
  | none => s.refuse h code .arg
  | some c => if s.site.isNone then s.refuse h code .noTable else body c s

/-- A request on a point: ARG above 191, NO_TABLE without an ACTIVE SITE slot, NOT_FOUND at an empty entry
(R18, R26). -/
def State.onPoint (s : State) (h : Header) (code : Nat) (w : Word) (body : Nat → PointEntry → State → State) : State :=
  if 191 < w.toNat then s.refuse h code .arg
  else if s.site.isNone then s.refuse h code .noTable
  else
    match s.entry w.toNat with
    | none => s.refuse h code .notFound
    | some e => body w.toNat e s

end Sys2Proof.Machine
end

