-- ==== Sys2Proof/Machine/Reports.lean ====
section
/-! DEFINITION. What the reading requests report: the contents of their responses, which change no state
(R18, R31, R57, R101, R109, R137, R151, R166, R193). -/

namespace Sys2Proof.Machine

/-- The generation of the ACTIVE slot of a kind (R193). -/
def KindStore.activeGen (k : KindStore) : Option (BitVec 16) := k.active.bind Slot.generation

/-- The lanes of the positions in PULSE, RAMP, SWITCH and HOLD with a value each (R16, R17). -/
def State.flowingLanes (s : State) (v : Pos → Value) : List (Pos × Value) :=
  (sixIndices.filter fun p => (s.seq p).state.flowing).map fun p => (p, v p)

/-- For each event kind, its flags that are set and whether it is enabled (R193). -/
def State.eventCounts (s : State) : List (Nat × Bool) :=
  eventKinds.map fun k =>
    (k.scopes.countP fun sc => (s.flag k sc).isSome, maskHas s.events.enable.toNat k)

/-- STATUS_READ (R193). -/
def State.statusReport (s : State) : StatusReport where
  strap       := s.ring.strap
  trip        := s.points.trip
  cause       := s.points.cause
  timeValid   := s.time.valid
  day         := s.time.day
  minute      := s.time.minute
  sinceBeacon := s.time.sinceBeacon
  retentionLost := s.sales.retentionLost
  drops       := s.ring.drops
  discards    := s.ring.discards
  placesTaken := s.ring.responses.length + (if s.ring.deferred.isSome then 1 else 0)
  notices     := s.ring.notices.length
  positions   := s.seqs.map Seq.state
  compressors := s.sched.comps.map CompRecord.state
  band        := s.cool.band
  capacity    := s.cool.capacity
  heldSum     := s.cool.heldSum
  gasGen      := s.tables.gas.activeGen
  protocolGen := s.tables.protocol.activeGen
  tariffGen   := s.tables.tariff.activeGen
  siteGen     := s.tables.site.activeGen
  freeRecords := s.freeRecords
  counter     := s.sales.counter
  warmest     := laneScan true (s.flowingLanes s.outletT)
  highest     := laneScan true (s.flowingLanes s.combined)
  events      := s.eventCounts

/-- POSITION_READ (R101, R103, R117).  The ramp time is reported as long as a ramp base is held, and outside RAMP it is still
the present count less the ramp mark (R85; DESIGN CHOICE, notes/assumptions/36.md). -/
def State.positionReport (s : State) (p : Pos) : PositionReport :=
  let q := s.seq p
  let paused := q.state == .switch || q.state == .hold
  { state := q.state, cls := some (s.cls p), sale := q.sale, endReason := q.endReason, endCond := q.endCond,
    category := q.category, band := q.band, aprr := q.category.map fun _ => (s.combination p).aprr,
    causes := if paused then some q.causes else none, resume := if paused then q.resume else none,
    rampBase := q.rampBase, rampTime := q.rampBase.map fun _ => s.rampTime p, target := q.target,
    opening := q.rampBase.map fun _ => q.opening, window := q.window, outCount := outCount q.window,
    settleP := q.settleP, initialP := q.initialP, coupleLeft := s.left q.couple, holdLeft := s.left q.holdLimit,
    pulseLeft := s.left q.pulse, ventLeft := s.left q.ventTimer, link := q.link,
    linkLeft := s.left (q.link.bind LinkState.timer),
    gross := ((s.saleOf p).filter fun r => r.state == .opened).map SaleRecord.gross, draw := s.draw p,
    active := q.active, holdSet := q.holdSet, raised := q.raised }

/-- BANK_READ (R137). -/
def State.bankReport (s : State) (b : Bank) : BankReport :=
  ⟨s.bankSite b, s.bank b, ⟨s.routed 0 b, s.routed 1 b, s.routed 2 b, s.routed 3 b, s.routed 4 b, s.routed 5 b⟩⟩

/-- The cooling a compressor holds (R142, R151). -/
def State.compCooling (s : State) (c : Comp) : CompCooling :=
  match s.cool.allocOf (.compressor c) with
  | some a => .allocation a.critical
  | none =>
    match s.cool.queue.find? fun r => r.holder == .compressor c with
    | some (.compressor _ _ critical) => .request critical
    | _ => .none

/-- COMPRESSOR_READ (R151). -/
def State.compReport (s : State) (c : Comp) : CompReport :=
  let r := s.comp c
  let counted := r.state == .running || r.state == .switching || r.state == .unloaded
  { site := s.compSite c, state := r.state, target := r.target,
    runTime := if counted then some (s.since r.runMark) else none, timerLeft := s.left r.timer,
    cooling := s.compCooling c, lastStop := r.lastStop, lastFault := r.lastFault, queue := s.sched.queue }

/-- One outlet monitor (R166). -/
def State.monitorReport (s : State) (p : Pos) : MonitorReport :=
  let m := s.cool.monitors.get p
  ⟨m.last, s.left m.settle, s.left m.grace, m.level⟩

/-- COOLING_READ (R166). -/
def State.coolReport (s : State) : CoolReport where
  ambient      := (s.sensor .ambient .station).map LiveRecord.toValue
  band         := s.cool.band
  chillerRun   := (s.sensor .chillerRun .station).map LiveRecord.toValue
  supply       := (s.sensor .chillerSupplyT .station).map LiveRecord.toValue
  supplyWithin := s.station.map s.supplyWithin
  capacity     := s.cool.capacity
  heldSum      := s.cool.heldSum
  free         := s.cool.capacity - s.cool.heldSum
  table        := s.cool.table
  queue        := s.cool.queue
  monitors     :=
    ⟨s.monitorReport 0, s.monitorReport 1, s.monitorReport 2, s.monitorReport 3, s.monitorReport 4, s.monitorReport 5⟩
  setpoint     := ((s.findPoint .chillerSetpoint .station).bind s.act).map ActRecord.auto
  fromScan     := s.cool.fromScan

/-- One slot of a TABLE_QUERY (R57). -/
def Slot.report (t : Slot) : SlotReport := ⟨t.role, t.status, t.bitmap, t.generation, t.binds, t.refs⟩

/-- POINT_READ of a sensor point (R18). -/
def State.sensorReport (s : State) (e : PointEntry) (r : LiveRecord) : SensorReport :=
  let pair := match e.scope with
    | .position p => if e.fn = .outletPA ∨ e.fn = .outletPB then some (s.points.pairs.get p) else none
    | _ => none
  { function := e.fn.code, scope := e.scope, value := r.toValue, freshness := r.freshness, left := s.left r.deadline,
    watch := r.watch, pair := pair }

/-- POINT_READ of an actuator point (R31). -/
def State.actReport (s : State) (e : PointEntry) (r : ActRecord) : ActReport :=
  { function := e.fn.code, scope := e.scope,
    bank := if e.fn = .bankValve ∨ e.fn = .dischargeValve then some e.bank else none,
    owner := r.owner, commanded := r.effective, auto := r.auto, manual := r.manual, safe := e.safe,
    feedback := (e.feedback.bind s.live).map fun f => (f.toValue, f.freshness), matching := r.matching,
    discLeft := s.left r.discrepancy, refreshLeft := s.left (some r.refresh) }

/-- POINT_READ (R18, R31). -/
def State.pointContent (s : State) (i : Nat) (e : PointEntry) : Content :=
  match s.record i with
  | .sensor r => .sensor (s.sensorReport e r)
  | .actuator r => .actuator (s.actReport e r)
  | .empty => .none

/-- REACTION_READ (R109). -/
def State.reactionCells (s : State) (c : Condition) : List ReactionCell :=
  [StateClass.idle, .preflow, .flowing, .postflow].map fun k =>
    ⟨s.reactionOf c k, defaultReactions.getD (cellIndex c k) .note, reactionFloors.getD (cellIndex c k) .note⟩

end Sys2Proof.Machine
end

