-- ==== Sys2Proof/Machine/Frames.lean ====
section
/-! DEFINITION. Meanings of the frame rows that no block answers: samples, totals, link frames, foreign commands, BEACON,
forwarded, bad and stripped frames, transmission (R5, R32, R116, R169, R187 to R189, R197, R198). -/

namespace Sys2Proof.Machine

/-- An event's outcome: every command of the part runs to its end. -/
def State.event (s : State) (body : State → State) : Host.Outcome State Fault Refusal := .next (s.runEvent body)

/-- SAMPLE (R5, R187). -/
def execSample (h : Header) (l : List Reading) (s : State) : Host.Outcome State Fault Refusal :=
  s.event fun s => s.copyIn (sampleFrame h l) fun s => s.takeSample h.src l

/-- TOTAL, at every position that names the meter, P0 to P5 in order and each with its hand-overs before the next
(R168, R169, R187; the order is a DESIGN CHOICE, notes/assumptions/5.md). -/
def execTotal (h : Header) (totaliser : Word) (st : Status) (s : State) : Host.Outcome State Fault Refusal :=
  s.event fun s => s.copyIn (totalFrame h totaliser st) fun s =>
    sixIndices.foldl (fun s p => (s.takeTotalAt p h.src totaliser st).settle) s

/-- LINK, at every position that names the link node, P0 to P5 in order and each with its hand-overs before the next
(R116, R118, R187; the order is a DESIGN CHOICE, notes/assumptions/5.md). -/
def execLink (h : Header) (pressure temp : Word) (st : Status) (c : Word) (s : State) :
    Host.Outcome State Fault Refusal :=
  s.event fun s => s.copyIn (linkFrame h pressure temp st c) fun s =>
    sixIndices.foldl (fun s p => (s.takeLinkAt p h.src pressure temp st (vehicleCommandOfWord c)).settle) s

/-- COMMAND from another node (R32, R187). -/
def execCommand (h : Header) (channel value : Word) (s : State) : Host.Outcome State Fault Refusal :=
  s.event fun s => s.commandIn (commandFrame h channel value) channel value

/-- A BEACON is accepted (R198). -/
def State.acceptsBeacon (s : State) (h : Header) (minute milli : Word) : Bool :=
  !s.notSupervisor h && minute.toNat < 1440 && milli.toNat < 60000

/-- An accepted BEACON sets the clock and hands the day to the sales unit (R183, R198). -/
def State.takeBeacon (s : State) (h : Header) (day minute milli : Word) : State :=
  if s.acceptsBeacon h minute milli then
    (s.mapTime fun t =>
      { t with valid := true, minute := minute.toNat, day := day.toNat,
               mark := t.count - BitVec.ofNat 32 milli.toNat, sinceBeacon := 0 }).takeDay day.toNat
  else s

/-- BEACON (R187, R198). -/
def execBeacon (h : Header) (day minute milli : Word) (s : State) : Host.Outcome State Fault Refusal :=
  s.event fun s => s.beaconIn (beaconFrame h day minute milli) fun s => s.takeBeacon h day minute milli

/-- FORWARDED_FRAME (R187, R188). -/
def execForwardedFrame (f : Frame) (s : State) : Host.Outcome State Fault Refusal := s.event fun s => s.otherIn f

/-- BAD_FRAME: dropped and counted; words that make a good frame are no bad frame (R187, R188).  An unaddressed part does the
same, also where the frame check passes and the length word alone is bad, though R186 lets it forward every frame that
passes its frame check (DESIGN CHOICE, notes/assumptions/47.md). -/
def execBadFrame (ws : List Word) (s : State) : Host.Outcome State Fault Refusal :=
  s.event fun s => if badWords ws then s.dropFrame else s

/-- OWN_FRAME_STRIPPED: an own frame leaves the ring and nothing is taken (R187). -/
def execOwnFrameStripped (f : Frame) (s : State) : Host.Outcome State Fault Refusal := s.event fun s => s.otherIn f

/-- TRANSMIT_COMPLETE (R189). -/
def execTransmitComplete (s : State) : Host.Outcome State Fault Refusal := s.event State.transmitted

/-- The minutes since BEACON, saturating, and the validity of the time against the beacon limit in force
(R197 step 3). -/
def State.countMinute (s : State) : State :=
  let n := min (s.time.sinceBeacon + 1) 1440
  let limit := (s.station.map StationSite.beaconLimit).getD 0
  s.mapTime fun t => { t with sinceBeacon := n, valid := t.valid && (limit == 0 || n < limit) }

/-- The count at which the present minute ends (R197). -/
def TimeBase.minuteEnd (t : TimeBase) : Count := t.mark + 60000

/-- The clock advances by a minute (R183, R197). -/
def State.advanceMinute (s : State) : State :=
  let passes := 1439 ≤ s.time.minute
  let day := if passes then (s.time.day + 1) % 65536 else s.time.day
  let s := s.mapTime fun t =>
    { t with mark := t.minuteEnd, minute := if passes then 0 else t.minute + 1, day := day }
  let s := if passes then s.takeDay day else s
  s.countMinute

/-- MINUTE_ADVANCE; while the time is not valid the clock does not advance (R197). -/
def execMinuteAdvance (s : State) : Host.Outcome State Fault Refusal :=
  s.event fun s => if s.time.valid then (s.arriveAt s.time.minuteEnd).advanceMinute else s

end Sys2Proof.Machine
end

