-- ==== Sys2Proof/Machine/Pay.lean ====
section
/-! DEFINITION. Meanings of the PAY rows: AUTHORIZE, CANCEL and unknown requests (R172 to R175). -/

namespace Sys2Proof.Machine

/-- The fields of an AUTHORIZE (section 11.3). -/
structure Order where
  position  : Word
  reference : BitVec 32
  card      : Word
  contract  : Word
  preset    : Word
  value     : BitVec 32
  deriving DecidableEq, Repr

/-- Card kind codes RETAIL 0, FLEET 1. -/
def cardOfWord (w : Word) : Option CardKind :=
  match w.toNat with
  | 0 => some .retail
  | 1 => some .fleet
  | _ => none

/-- Preset kind codes NONE 0, MASS 1, AMOUNT 2. -/
def presetOfWord (w : Word) : Option PresetKind :=
  match w.toNat with
  | 0 => some .none
  | 1 => some .mass
  | 2 => some .amount
  | _ => none

/-- A preset value is in its range (R172). -/
def presetInRange (k : PresetKind) (v : Nat) : Bool :=
  match k with
  | .none => true
  | .mass => v ≤ Config.grossMax
  | .amount => v ≤ Config.amountMax

/-- The frame's source is the position's terminal node (R168, R172). -/
def State.fromTerminal (s : State) (h : Header) (p : Pos) : Bool :=
  (s.posSite p).any fun t => t.terminal != 0 && t.terminal == h.src.toNat

/-- The effective preset before the FLEET reduction, and whether it was clamped to M (R173). -/
def effectivePreset (k : PresetKind) (value price maxSale : Nat) : Nat × Bool :=
  if value = 0 then (maxSale, false)
  else
    match k with
    | .none => (maxSale, false)
    | .mass => (min value maxSale, decide (maxSale < value))
    | .amount => (min (value * 10000 / price) maxSale, decide (maxSale < value * 10000 / price))

/-- What a contract has left to reserve (R173, R182). -/
def Contract.left (c : Contract) : Nat := c.remaining - c.reserved

/-- The contract permits a class (R172, R182). -/
def Contract.permits (c : Contract) : DispClass → Bool
  | .h70 => c.permitH70
  | .h35 => c.permitH35

/-- The terms of an accepted AUTHORIZE (R173, R174). -/
structure Terms where
  position  : Pos
  cls       : DispClass
  card      : CardKind
  contract  : Option Nat
  preset    : PresetKind
  value     : Nat
  price     : Nat
  effective : Nat
  clamped   : Bool
  slot      : Nat
  bind      : Bind
  deriving DecidableEq, Repr

/-- The contract of a FLEET order with its refusals; RETAIL has none (R172). -/
def State.orderContract (s : State) (card : CardKind) (id : Word) (k : DispClass) : Except Result (Option Contract) :=
  match card with
  | .retail => .ok none
  | .fleet =>
    match s.contract id.toNat with
    | none => .error .notFound
    | some c => if c.active && c.permits k then .ok (some c) else .error .contract

/-- Tier of a sale: 0 for RETAIL, the contract's for FLEET (R174). -/
def tierOf (c : Option Contract) : Nat := (c.map Contract.tier).getD 0

/-- The checks on the preset and the terms that pass them (R172 from the FLEET preset on, R173, R174 step 1). -/
def State.price (s : State) (p : Pos) (card : CardKind) (preset : PresetKind) (value : Nat) (c : Option Contract)
    (slot : Nat) (b : Bind) : Except Result Terms :=
  let t := s.tables.tariff.slot b.tariff.slot
  let k := s.cls p
  let h := (s.tables.protocol.slot b.protocol.slot).header k
  let price := t.price (t.priceBand s.time.minute) k (tierOf c)
  let (m, clamped) := effectivePreset preset value price h.maxSale
  let m := match c with
    | some c => min m c.left
    | none => m
  if card = .fleet ∧ preset = .amount then .error .arg
  else if preset = .amount ∧ price = 0 then .error .arg
  else if m < h.minSale then .error (if card = .fleet then .allowance else .presetLow)
  else .ok ⟨p, k, card, c.map Contract.id, preset, value, price, m, clamped, slot, b⟩

/-- The checks of an AUTHORIZE in the order of R172, ending in its terms. -/
def State.terms (s : State) (h : Header) (o : Order) : Except Result Terms :=
  if s.site.isNone then .error .noTable
  else
    match positionOfWord o.position, cardOfWord o.card, presetOfWord o.preset with
    | some p, some card, some preset =>
      if !presetInRange preset o.value.toNat then .error .arg
      else if !s.fromTerminal h p then .error .notTerminal
      else if (s.seq p).state = .outOfService then .error .outOfService
      else if (s.seq p).state ≠ .idle then .error .busy
      else if s.latched then .error .tripActive
      else if !s.time.valid then .error .noTime
      else
        match s.tables.activeBind, s.sales.log.findIdx? Option.isNone with
        | none, _ => .error .noTable
        | _, none => .error .logFull
        | some b, some slot =>
          if Config.saleNumberMax ≤ s.sales.counter then .error .logFull
          else
            match s.orderContract card o.contract (s.cls p) with
            | .error e => .error e
            | .ok c => s.price p card preset o.value.toNat c slot b
    | _, _, _ => .error .arg

/-- The record an accepted AUTHORIZE writes (R174, R176).  Net, billed and overrun mass and amount stand at 0 and the terminal
as not notified until the closure writes them (DESIGN CHOICE, notes/assumptions/53.md). -/
def Terms.record (t : Terms) (number : Nat) (reference : BitVec 32) (start : Stamp) : SaleRecord where
  state       := .reserved
  number      := number
  position    := t.position
  cls         := t.cls
  card        := t.card
  contract    := t.contract
  reference   := reference
  preset      := t.preset
  presetValue := if t.preset = .none then 0 else t.value
  effective   := t.effective
  reservation := t.contract.map fun _ => t.effective
  price       := t.price
  bind        := t.bind
  start       := start
  finish      := none
  startCat    := none
  finalCat    := none
  reason      := none
  reasonCond  := none
  gross       := 0
  vent        := none
  net         := 0
  billed      := 0
  overrun     := 0
  amount      := 0
  marks       := ⟨false, false, false, t.clamped⟩
  notified    := false

/-- Steps 2 to 4 of an accepted AUTHORIZE: the record reserved and bound, the reservation counted (R174). -/
def State.reserve (s : State) (t : Terms) (reference : BitVec 32) : State :=
  let n := s.sales.counter + 1
  let s := s.mapSales fun u => { u with counter := n }
  let s := (s.setLog t.slot (some (t.record n reference ⟨s.time.day, s.time.minute⟩))).bindRecord t.bind
  match t.contract with
  | some id => s.mapContract id fun c => { c with reserved := c.reserved + t.effective }
  | none => s

/-- LOG_NEAR_FULL is set with the present FREE count as its detail (R174, R185). -/
def State.noteNearFull (s : State) : State := s.setFlag .logNearFull .station (.freeCount s.freeRecords)

/-- An accepted AUTHORIZE (R174).  Its step 7 looks at the FREE count before step 2: where it was 9, LOG_NEAR_FULL is set
after step 6 with the count as it then stands, also where step 6 has cancelled the fill of a COUPLED nozzle and freed the
record again (DESIGN CHOICE, notes/assumptions/38.md). -/
def State.authorizeWith (s : State) (h : Header) (o : Order) (t : Terms) : State :=
  let free := s.freeRecords
  let s := s.reserve t o.reference
  let n := s.sales.counter
  let g : Grant := ⟨n, t.effective, t.price, t.contract.map fun _ => t.effective⟩
  let s := s.answerPay h 1 o.position o.reference .ok t.clamped (some g)
  let s := s.enterAuthorized t.position n t.effective
  if free = Config.nearFull + 1 then s.noteNearFull else s

/-- The payload of an AUTHORIZE (section 12.10). -/
def Order.payload (o : Order) : List Word :=
  [1, o.position] ++ wordsOf32 o.reference.toNat ++ [o.card, o.contract, o.preset] ++ wordsOf32 o.value.toNat

/-- An AUTHORIZE taken by the sales unit (R172, R174).  The PAY_RESULT of a refusal is not marked CLAMPED, also where the
preset had been clamped to M before the last check failed (R173; DESIGN CHOICE, notes/assumptions/38.md). -/
def State.takeAuthorize (s : State) (h : Header) (o : Order) : State :=
  match s.terms h o with
  | .error e => s.answerPay h 1 o.position o.reference e false none
  | .ok t => s.authorizeWith h o t

/-- AUTHORIZE (R172 to R174, R187, R192). -/
def execAuthorize (h : Header) (position : Word) (reference : BitVec 32) (card contract preset : Word)
    (value : BitVec 32) (s : State) : Host.Outcome State Fault Refusal :=
  let o : Order := ⟨position, reference, card, contract, preset, value⟩
  s.event fun s => s.requestIn (payFrame h o.payload) fun s => s.takeAuthorize h o

/-- The result of a CANCEL and, where it is OK, the position (R175).  Of the two NO_TABLE checks of R172 it is given the first
alone, that of the ACTIVE SITE slot (DESIGN CHOICE, notes/assumptions/49.md). -/
def State.cancelCheck (s : State) (h : Header) (position : Word) (reference : BitVec 32) : Except Result Pos :=
  if s.site.isNone then .error .noTable
  else
    match positionOfWord position with
    | none => .error .arg
    | some p =>
      if !s.fromTerminal h p then .error .notTerminal
      else if !((s.saleOf p).any fun r => r.reference == reference) then .error .notFound
      else if (s.seq p).state = .authorized ∨ (s.seq p).state = .admitting then .ok p
      else .error .busy

/-- A CANCEL taken by the sales unit (R175). -/
def State.takeCancel (s : State) (h : Header) (position : Word) (reference : BitVec 32) : State :=
  match s.cancelCheck h position reference with
  | .error e => s.answerPay h 2 position reference e false none
  | .ok p => (s.cancelFill p .cancelled).answerPay h 2 position reference .ok false none

/-- CANCEL (R175, R187, R192). -/
def execCancel (h : Header) (position : Word) (reference : BitVec 32) (s : State) :
    Host.Outcome State Fault Refusal :=
  s.event fun s => s.requestIn (payFrame h ([2, position] ++ wordsOf32 reference.toNat)) fun s =>
    s.takeCancel h position reference

/-- UNKNOWN_PAY_REQUEST: answered ARG (R172). -/
def execUnknownPayRequest (h : Header) (request position : Word) (reference : BitVec 32) (s : State) :
    Host.Outcome State Fault Refusal :=
  s.event fun s => s.requestIn (payFrame h ([request, position] ++ wordsOf32 reference.toNat)) fun s =>
    s.answerPay h request position reference .arg false none

end Sys2Proof.Machine
end

