-- ==== Sys2Proof/Machine/Tables.lean ====
section
/-! DEFINITION. Meanings of the table requests, and what an activation hands to the blocks (R55 to R60, R138, R152, R167,
R171). -/

namespace Sys2Proof.Machine

/-- A slot changed in the store. -/
def TableStore.mapSlot (t : TableStore) (k : TableKind) (id : SlotId) (f : Slot → Slot) : TableStore :=
  t.setKind k ((t.kind k).setSlot id (f ((t.kind k).slot id)))

/-- A slot that no write or clear may touch: ACTIVE, or bound (R55). -/
def Slot.inUse (t : Slot) : Bool := t.role == .active || t.binds != 0

/-- A segment replaced; the generation and reference densities go (R55). -/
def Slot.write (t : Slot) (seg : Nat) (content : List Word) : Slot :=
  { t with segments := t.segments.set seg (some content), generation := none, refs := none }

/-- Everything cleared (R56). -/
def Slot.clear (t : Slot) (k : TableKind) : Slot :=
  { t with segments := List.replicate k.segments none, generation := none, refs := none }

/-! ## Activation -/

/-- The station is quiet (R60). -/
def State.quiet (s : State) : Bool :=
  (s.seqs.toList.all fun q => q.state == .idle || q.state == .outOfService) &&
    twoIndices.all fun c =>
      match (s.comp c).state with
      | .stopped | .lockout | .faulted | .disabled => true
      | _ => false

/-- A slot becomes ACTIVE with a new generation and the other one STANDBY; reference densities are computed for GAS
(R44, R59 steps 1 to 3). -/
def KindStore.activate (k : KindStore) (kind : TableKind) (id : SlotId) : KindStore :=
  let gen := k.lastGen + 1
  let t := k.slot id
  let t := { t with role := .active, generation := some gen, refs := if kind = .gas then some t.references else t.refs }
  let o := { k.slot id.other with role := .standby }
  { (k.setSlot id t).setSlot id.other o with lastGen := gen }

/-- A bank at a SITE activation (R138). -/
def BankLive.renewed (b : BankLive) : BankLive :=
  { BankLive.start with state := if b.state = .disabled then .disabled else .unknown }

/-- A fill context at a power-up or SITE activation with a SITE table: SENSOR_STALE is active without a raise
(R103, R106, R115). -/
def Seq.fresh (q : Seq) : Seq :=
  { q with lastP := none, lastValidP := none, overTest := .none, active := { LevelSet.empty with sensorStale := true } }

/-- The bank valves, compressor motors and discharge valves written closed or off by their owning jobs
(R22, R130, R142; DEDUCED, notes/assumptions/18.md). -/
def State.writeRest (s : State) : State :=
  let s := sixIndices.foldl (fun s p => sixIndices.foldl (fun s b => s.writeBankValve p b false) s) s
  twoIndices.foldl (fun s c => sixIndices.foldl (fun s b => s.writeDischarge c b false) (s.writeRun c false)) s

/-- The blocks take the content of a SITE slot that has become ACTIVE (R60, R138, R152, R167, R171). -/
def State.takeSite (s : State) : State :=
  let s := s.buildPoints.examineTrip
  let s := { s with banks := s.banks.map BankLive.renewed, draws := Six.all Draw.empty, seqs := s.seqs.map Seq.fresh }
  let s := s.siteSched
  let s := s.mapSales fun u => { u with intake := Six.all Intake.start }
  let s := s.mapCool fun c => { c with monitors := Six.all Monitor.start }
  s.writeRest.recomputeBand.recomputeSetpoint

/-- The consumers of a kind are told of its new content (R59). -/
def State.tellConsumers (s : State) : TableKind → State
  | .gas => s
  | .protocol => s.recomputeBand.recomputeSetpoint
  | .tariff => s
  | .site => s.takeSite

/-- An accepted activation (R59). -/
def State.activate (s : State) (k : TableKind) (id : SlotId) : State :=
  let s := (s.mapTables fun t => t.setKind k ((t.kind k).activate k id)).tellConsumers k
  s.setFlag .tableActivated .station (.activated k id (s.tables.kind k).lastGen)

/-! ## The requests -/

/-- TABLE_QUERY (R57). -/
def execTableQuery (h : Header) (kind : Word) (s : State) : Host.Outcome State Fault Refusal :=
  s.event fun s => s.mreqIn h 6 [kind] fun s =>
    match kindOfWord kind with
    | none => s.refuse h 6 .arg
    | some k =>
      let t := s.tables.kind k
      s.answer h 6 .ok false (.table t.lastGen t.slotA.report t.slotB.report)

/-- TABLE_CLEAR (R56). -/
def execTableClear (h : Header) (kind slot : Word) (s : State) : Host.Outcome State Fault Refusal :=
  s.event fun s => s.mreqIn h 7 [kind, slot] fun s =>
    match kindOfWord kind, slotOfWord slot with
    | some k, some id =>
      if ((s.tables.kind k).slot id).inUse then s.refuse h 7 .inUse
      else (s.mapTables fun t => t.mapSlot k id fun t => t.clear k).answerOk h 7
    | _, _ => s.refuse h 7 .arg

/-- TABLE_WRITE (R55). -/
def execTableWrite (h : Header) (kind slot segment : Word) (content : List Word) (s : State) :
    Host.Outcome State Fault Refusal :=
  s.event fun s => s.mreqIn h 8 ([kind, slot, segment] ++ content) fun s =>
    match kindOfWord kind, slotOfWord slot with
    | some k, some id =>
      let seg := segment.toNat
      if k.segments ≤ seg ∨ content.length ≠ k.segmentLength seg then s.refuse h 8 .arg
      else if ((s.tables.kind k).slot id).inUse then s.refuse h 8 .inUse
      else (s.mapTables fun t => t.mapSlot k id fun t => t.write seg content).answerOk h 8
    | _, _ => s.refuse h 8 .arg

/-- Steps 2 to 6 of TABLE_ACTIVATE (R58). -/
def State.tryActivate (s : State) (h : Header) (k : TableKind) (id : SlotId) : State :=
  let t := (s.tables.kind k).slot id
  if t.role = .active then s.answer h 9 .ok false (.activated (t.generation.getD 0))
  else if t.status ≠ .full then s.refuse h 9 .incomplete
  else if k = .site ∧ s.quiet = false then s.refuse h 9 .notQuiet
  else
    match t.validate k s.ring.strap.toNat with
    | some (n, c) => s.answer h 9 .invalidTable false (.failedEntry n c)
    | none =>
      let s := s.activate k id
      s.answer h 9 .ok false (.activated (s.tables.kind k).lastGen)

/-- TABLE_ACTIVATE (R58). -/
def execTableActivate (h : Header) (kind slot : Word) (s : State) : Host.Outcome State Fault Refusal :=
  s.event fun s => s.mreqIn h 9 [kind, slot] fun s =>
    match kindOfWord kind, slotOfWord slot with
    | some k, some id => s.tryActivate h k id
    | _, _ => s.refuse h 9 .arg

end Sys2Proof.Machine
end

