-- ==== Sys2Proof/Machine/Records.lean ====
section
/-! DEFINITION. Meanings of the contract and log requests (R181, R182). -/

namespace Sys2Proof.Machine

/-! ## Contracts -/

/-- A contract put in its place by id, in the place of the one with its id if there is one (R182). -/
def insertContract (c : Contract) : List Contract → List Contract
  | [] => [c]
  | d :: l => if c.id < d.id then c :: d :: l else if c.id = d.id then c :: l else d :: insertContract c l

/-- Contract state codes ACTIVE 0, SUSPENDED 1. -/
def activeOfWord (w : Word) : Option Bool :=
  match w.toNat with
  | 0 => some true
  | 1 => some false
  | _ => none

/-- The contract a CONTRACT_WRITE leaves: fresh for a new id, with its running figures kept for a held one (R182).
Class mask bit 0 permits H70 and bit 1 H35 (DESIGN CHOICE, notes/assumptions/10.md). -/
def writtenContract (old : Option Contract) (id : Nat) (active : Bool) (tier mask quota : Nat) : Contract :=
  { id := id, active := active, tier := tier, permitH70 := mask.testBit 0, permitH35 := mask.testBit 1, quota := quota,
    remaining := (old.map Contract.remaining).getD quota, reserved := (old.map Contract.reserved).getD 0,
    salesToday := (old.map Contract.salesToday).getD 0 }

/-- CONTRACT_WRITE past ARG (R182). -/
def State.writeContract (s : State) (h : Header) (id : Nat) (active : Bool) (tier mask quota : Nat) : State :=
  let old := s.contract id
  if old.isNone ∧ Config.contractPlaces ≤ s.sales.contracts.length then s.refuse h 10 .inUse
  else
    let c := writtenContract old id active tier mask (min quota Config.quotaMax)
    (s.mapSales fun u => { u with contracts := insertContract c u.contracts }).answer h 10 .ok
      (decide (Config.quotaMax < quota)) .none

/-- CONTRACT_WRITE (R182). -/
def execContractWrite (h : Header) (id state tier mask : Word) (quota : BitVec 32) (s : State) :
    Host.Outcome State Fault Refusal :=
  s.event fun s => s.mreqIn h 10 ([id, state, tier, mask] ++ wordsOf32 quota.toNat) fun s =>
    match activeOfWord state with
    | some a =>
      if id = 0 ∨ tier = 0 ∨ 3 < tier.toNat ∨ mask = 0 ∨ 3 < mask.toNat then s.refuse h 10 .arg
      else s.writeContract h id.toNat a tier.toNat mask.toNat quota.toNat
    | none => s.refuse h 10 .arg

/-- CONTRACT_READ (R182). -/
def execContractRead (h : Header) (id : Word) (s : State) : Host.Outcome State Fault Refusal :=
  s.event fun s => s.mreqIn h 11 [id] fun s =>
    if id = 0 then s.refuse h 11 .arg
    else
      match s.contract id.toNat with
      | none => s.refuse h 11 .notFound
      | some c => s.answer h 11 .ok false (.contract c)

/-- CONTRACT_DELETE (R182). -/
def execContractDelete (h : Header) (id : Word) (s : State) : Host.Outcome State Fault Refusal :=
  s.event fun s => s.mreqIn h 12 [id] fun s =>
    if id = 0 then s.refuse h 12 .arg
    else
      match s.contract id.toNat with
      | none => s.refuse h 12 .notFound
      | some c =>
        if 0 < c.reserved then s.refuse h 12 .inUse
        else (s.mapSales fun u => { u with contracts := u.contracts.filter fun d => d.id != c.id }).answerOk h 12

/-! ## The log -/

/-- The log slot of the record with a sale number (R181). -/
def State.slotOfNumber (s : State) (n : Nat) : Option Nat :=
  s.sales.log.findIdx? fun r => r.any fun r => r.number == n

/-- LOG_PEEK (R181). -/
def execLogPeek (h : Header) (s : State) : Host.Outcome State Fault Refusal :=
  s.event fun s => s.mreqIn h 17 [] fun s =>
    match s.sales.closure.head?.bind s.logAt with
    | none => s.refuse h 17 .notFound
    | some r => s.answer h 17 .ok false (.record r)

/-- LOG_READ (R181). -/
def execLogRead (h : Header) (number : BitVec 32) (s : State) : Host.Outcome State Fault Refusal :=
  s.event fun s => s.mreqIn h 18 (wordsOf32 number.toNat) fun s =>
    match (s.slotOfNumber number.toNat).bind s.logAt with
    | none => s.refuse h 18 .notFound
    | some r => s.answer h 18 .ok false (.record r)

/-- LOG_RELEASE (R181). -/
def execLogRelease (h : Header) (number : BitVec 32) (s : State) : Host.Outcome State Fault Refusal :=
  s.event fun s => s.mreqIn h 19 (wordsOf32 number.toNat) fun s =>
    match s.slotOfNumber number.toNat with
    | none => s.refuse h 19 .notFound
    | some i =>
      match s.logAt i with
      | none => s.refuse h 19 .notFound
      | some r =>
        if r.state = .closed then
          ((s.setLog i none).mapSales fun u => { u with closure := u.closure.filter (· != i) }).answerOk h 19
        else s.refuse h 19 .busy

end Sys2Proof.Machine
end

