-- ==== Sys2Proof/Machine/Supervision.lean ====
section
/-! DEFINITION. Meanings of the supervisor's other requests: status and reads, points, reactions, events, positions,
compressors, banks, the trip and RESTART (R18, R26, R35, R36, R98 to R101, R109, R136, R137, R151, R166, R191, R193,
R195, R196, R199). -/

namespace Sys2Proof.Machine

/-- UNKNOWN_MREQ: refused ARG (R191 step 3). -/
def execUnknownMreq (h : Header) (code : Option Word) (content : List Word) (s : State) :
    Host.Outcome State Fault Refusal :=
  let payload := code.toList ++ content
  s.event fun s => s.payloadIn h payload fun s => s.refuse h (requestCode h payload).toNat .arg

/-- STATUS_READ (R193). -/
def execStatusRead (h : Header) (s : State) : Host.Outcome State Fault Refusal :=
  s.event fun s => s.mreqIn h 1 [] fun s => s.answer h 1 .ok false (.status s.statusReport)

/-- POSITION_READ (R101). -/
def execPositionRead (h : Header) (position : Word) (s : State) : Host.Outcome State Fault Refusal :=
  s.event fun s => s.mreqIn h 2 [position] fun s => s.onPosition h 2 position fun p s =>
    s.answer h 2 .ok false (.position (s.positionReport p))

/-- BANK_READ (R137). -/
def execBankRead (h : Header) (bank : Word) (s : State) : Host.Outcome State Fault Refusal :=
  s.event fun s => s.mreqIn h 3 [bank] fun s => s.onBank h 3 bank fun b s =>
    s.answer h 3 .ok false (.bank (s.bankReport b))

/-- COMPRESSOR_READ (R151). -/
def execCompressorRead (h : Header) (compressor : Word) (s : State) : Host.Outcome State Fault Refusal :=
  s.event fun s => s.mreqIn h 4 [compressor] fun s => s.onCompressor h 4 compressor fun c s =>
    s.answer h 4 .ok false (.compressor (s.compReport c))

/-- COOLING_READ (R166). -/
def execCoolingRead (h : Header) (s : State) : Host.Outcome State Fault Refusal :=
  s.event fun s => s.mreqIn h 5 [] fun s => s.answer h 5 .ok false (.cooling s.coolReport)

/-! ## Points and reactions -/

/-- POINT_READ (R18, R31). -/
def execPointRead (h : Header) (point : Word) (s : State) : Host.Outcome State Fault Refusal :=
  s.event fun s => s.mreqIn h 13 [point] fun s => s.onPoint h 13 point fun i e s =>
    s.answer h 13 .ok false (s.pointContent i e)

/-- POINT_MANUAL (R26). -/
def execPointManual (h : Header) (point value : Word) (s : State) : Host.Outcome State Fault Refusal :=
  s.event fun s => s.mreqIn h 14 [point, value] fun s => s.onPoint h 14 point fun i e s =>
    if e.fn.isSensor then s.refuse h 14 .arg
    else
      let v := e.fn.valueOfWord value
      (s.setManual i (e.clampAct v)).answer h 14 .ok (decide (e.clampAct v ≠ v)) .none

/-- The reaction stored by a write: the cell's floor where the reaction is below it, and whether it was (R109). -/
def floored (r : Reaction) (cell : Nat) : Reaction × Bool :=
  let f := reactionFloors.getD cell .note
  if r.rank < f.rank then (f, true) else (r, false)

/-- REACTION_WRITE (R109). -/
def execReactionWrite (h : Header) (condition stateClass reaction : Word) (s : State) :
    Host.Outcome State Fault Refusal :=
  s.event fun s => s.mreqIn h 15 [condition, stateClass, reaction] fun s =>
    match conditionOfCode condition.toNat, classOfWord stateClass, reactionOfWord reaction with
    | some c, some k, some r =>
      let (v, low) := floored r (cellIndex c k)
      (s.setReactions (s.reactions.set (cellIndex c k) v)).answer h 15 .ok low .none
    | _, _, _ => s.refuse h 15 .arg

/-- REACTION_READ (R109). -/
def execReactionRead (h : Header) (condition : Word) (s : State) : Host.Outcome State Fault Refusal :=
  s.event fun s => s.mreqIn h 16 [condition] fun s =>
    match conditionOfCode condition.toNat with
    | some c => s.answer h 16 .ok false (.reactions (s.reactionCells c))
    | none => s.refuse h 16 .arg

/-! ## Events -/

/-- EVENT_TAKE (R196). -/
def execEventTake (h : Header) (s : State) : Host.Outcome State Fault Refusal :=
  s.event fun s => s.mreqIn h 20 [] fun s =>
    match s.firstFlag with
    | none => s.refuse h 20 .notFound
    | some (i, k, sc, f) =>
      (s.mapEvents fun e => { e with flags := e.flags.set i none }).answer h 20 .ok false (.event k sc f)

/-- EVENT_CLEAR (R196). -/
def execEventClear (h : Header) (mask : Word) (s : State) : Host.Outcome State Fault Refusal :=
  s.event fun s => s.mreqIn h 21 [mask] fun s =>
    if maskOk mask then
      (s.mapEvents fun e => { e with flags := clearMasked mask.toNat e.flags }).answerOk h 21
    else s.refuse h 21 .arg

/-- EVENT_ENABLE (R195). -/
def execEventEnable (h : Header) (mask : Word) (s : State) : Host.Outcome State Fault Refusal :=
  s.event fun s => s.mreqIn h 22 [mask] fun s =>
    if maskOk mask then (s.mapEvents fun e => { e with enable := BitVec.ofNat 14 mask.toNat }).answerOk h 22
    else s.refuse h 22 .arg

/-! ## Positions -/

/-- POSITION_STOP (R99). -/
def execPositionStop (h : Header) (position : Word) (s : State) : Host.Outcome State Fault Refusal :=
  s.event fun s => s.mreqIn h 23 [position] fun s => s.onPosition h 23 position fun p s =>
    match (s.seq p).state with
    | .pulse | .ramp | .switch | .hold => (s.endFill p .stopRequest none).answerOk h 23
    | .authorized | .admitting => (s.cancelFill p .cancelled).answerOk h 23
    | _ => s.refuse h 23 .busy

/-- POSITION_DISABLE (R98). -/
def execPositionDisable (h : Header) (position : Word) (s : State) : Host.Outcome State Fault Refusal :=
  s.event fun s => s.mreqIn h 24 [position] fun s => s.onPosition h 24 position fun p s =>
    match (s.seq p).state with
    | .idle => (s.disablePosition p).answerOk h 24
    | .outOfService => s.answerOk h 24
    | _ => s.refuse h 24 .busy

/-- POSITION_ENABLE (R98). -/
def execPositionEnable (h : Header) (position : Word) (s : State) : Host.Outcome State Fault Refusal :=
  s.event fun s => s.mreqIn h 25 [position] fun s => s.onPosition h 25 position fun p s =>
    match (s.seq p).state with
    | .outOfService => (s.setPosState p .idle).answerOk h 25
    | .idle => s.answerOk h 25
    | _ => s.refuse h 25 .busy

/-- POSITION_RESET (R100). -/
def execPositionReset (h : Header) (position : Word) (s : State) : Host.Outcome State Fault Refusal :=
  s.event fun s => s.mreqIn h 26 [position] fun s => s.onPosition h 26 position fun p s =>
    (s.resetPosition p).answerOk h 26

/-! ## Compressors and banks -/

/-- COMPRESSOR_RESET (R151). -/
def execCompressorReset (h : Header) (compressor : Word) (s : State) : Host.Outcome State Fault Refusal :=
  s.event fun s => s.mreqIn h 27 [compressor] fun s => s.onCompressor h 27 compressor fun c s =>
    if (s.comp c).state = .faulted then (s.enterLockout c).answerOk h 27 else s.refuse h 27 .busy

/-- COMPRESSOR_DISABLE (R151). -/
def execCompressorDisable (h : Header) (compressor : Word) (s : State) : Host.Outcome State Fault Refusal :=
  s.event fun s => s.mreqIn h 28 [compressor] fun s => s.onCompressor h 28 compressor fun c s =>
    (s.disableComp c).answerOk h 28

/-- COMPRESSOR_ENABLE (R151). -/
def execCompressorEnable (h : Header) (compressor : Word) (s : State) : Host.Outcome State Fault Refusal :=
  s.event fun s => s.mreqIn h 29 [compressor] fun s => s.onCompressor h 29 compressor fun c s =>
    (if (s.comp c).state = .disabled then s.enterLockout c else s).answerOk h 29

/-- A request that makes the bank state `t`: the change, the answer, and only then what follows from the change at the
scheduler and the waiters (R136).  R136 states that order for BANK_DISABLE; for BANK_ENABLE it is a DESIGN CHOICE
(notes/assumptions/16.md). -/
def State.requestBankState (s : State) (h : Header) (code : Nat) (b : Bank) (t : BankState) : State :=
  let old := (s.bank b).state
  if old = t then s.answerOk h code else ((s.putBankState b t).answerOk h code).bankStateChanged b old

/-- BANK_DISABLE (R136). -/
def execBankDisable (h : Header) (bank : Word) (s : State) : Host.Outcome State Fault Refusal :=
  s.event fun s => s.mreqIn h 30 [bank] fun s => s.onBank h 30 bank fun b s => s.requestBankState h 30 b .disabled

/-- BANK_ENABLE (R136). -/
def execBankEnable (h : Header) (bank : Word) (s : State) : Host.Outcome State Fault Refusal :=
  s.event fun s => s.mreqIn h 31 [bank] fun s => s.onBank h 31 bank fun b s =>
    if (s.bank b).state = .disabled then s.requestBankState h 31 b (s.enabledState b) else s.answerOk h 31

/-! ## The trip -/

/-- TRIP_SET (R35). -/
def execTripSet (h : Header) (s : State) : Host.Outcome State Fault Refusal :=
  s.event fun s => s.mreqIn h 32 [] fun s => (s.tripSource .request none).answerOk h 32

/-- The settle begins: the drive is released, the timer starts, and the answer is deferred (R36, R191, R192). -/
def State.beginSettle (s : State) (h : Header) : State :=
  let d := s.after Config.tripSettle
  let s := s.mapPoints fun u => { u with trip := .settling, settle := some d }
  s.mapRing fun r => { r with answering := false, deferred := some ⟨h.src, h.tag⟩ }

/-- TRIP_RESET (R36). -/
def execTripReset (h : Header) (s : State) : Host.Outcome State Fault Refusal :=
  s.event fun s => s.mreqIn h 33 [] fun s =>
    match s.points.trip with
    | .clear => s.answerOk h 33
    | .latched => s.beginSettle h
    | .settling => s.refuse h 33 .busy

/-! ## RESTART (R199) -/

/-- A SALE frame removed unsent sets the terminal notified field of its CLOSED record to no (R199 step 1). -/
def unnotify (numbers : List Nat) (r : SaleRecord) : SaleRecord :=
  if r.state = .closed ∧ r.number ∈ numbers then { r with notified := false } else r

/-- The sale numbers of the SALE frames in a response queue. -/
def saleNumbers (q : List Response) : List Nat :=
  q.filterMap fun f =>
    match f with
    | .sale _ r => some r.number
    | _ => none

/-- Step 1: the response queue is emptied, and a settle in progress ends with BUSY (R38, R199). -/
def State.restartResponses (s : State) : State :=
  let numbers := saleNumbers s.ring.responses
  let s := s.mapRing fun r => { r with responses := [] }
  let s := s.mapSales fun u => { u with log := u.log.map fun r => r.map (unnotify numbers) }
  if s.points.trip = .settling then s.endSettle .busy else s

/-- Step 2: flags and notices (R199). -/
def State.restartEvents (s : State) : State :=
  (s.mapEvents fun e => { e with flags := List.replicate 46 none }).mapRing fun r => { r with notices := [] }

/-- Step 6: the watches, then the command queue and the match states (R19, R38, R199). -/
def State.restartPoints (s : State) : State :=
  let s := sixIndices.foldl State.rearmWatches s
  let l := s.actuatorPoints
  let s := s.resolvePoints l
  let s := (s.mapRing fun r => { r with commands := [] }).placeAllCommands
  (l.foldl State.freshMatch s).placeTrip s.latched s.points.cause

/-- Steps 3 to 6, which find nothing to act on while no SITE slot is ACTIVE (R199). -/
def State.restartBlocks (s : State) : State :=
  if s.site.isNone then s
  else
    let s := sixIndices.foldl (fun s p => s.resetSteps p .restart) s
    s.restartSched.recomputeSetpoint.restartPoints

/-- RESTART (R199). -/
def execRestart (h : Header) (s : State) : Host.Outcome State Fault Refusal :=
  s.event fun s => s.mreqIn h 34 [] fun s => s.restartResponses.restartEvents.restartBlocks.answerOk h 34

end Sys2Proof.Machine
end

