-- ==== Sys2Proof/Machine/Timers.lean ====
section
/-! DEFINITION. Meanings of the expiry rows.  An expiry finds its timer running, or changes nothing; the counter then
stands at the deadline (R197; DEDUCED, notes/assumptions/4.md). -/

namespace Sys2Proof.Machine

/-- The expiry of a deadline: nothing while it does not run (R8, R77, R197). -/
def State.expire (s : State) (d : Option Count) (body : State → State) : State :=
  match d with
  | none => s
  | some d => body (s.arriveAt d)

/-- Deadline of the live record of a point (R3). -/
def State.pointDeadline (s : State) (i : Nat) : Option Count := (s.live i).bind LiveRecord.deadline

/-- Refresh deadline of an actuator point (R28). -/
def State.refreshDeadline (s : State) (i : Nat) : Option Count := (s.act i).map ActRecord.refresh

/-- Discrepancy deadline of an actuator point (R30). -/
def State.discrepancyDeadline (s : State) (i : Nat) : Option Count := (s.act i).bind ActRecord.discrepancy

/-- The pulse timer while it is in a phase (R82, R83). -/
def State.pulseDeadline (s : State) (p : Pos) (f : PulsePhase) : Option Count :=
  if (s.seq p).phase = f then (s.seq p).pulse else none

/-- A compressor's timer while the compressor is in a state (R142). -/
def State.compTimer (s : State) (c : Comp) (t : CompState) : Option Count :=
  if (s.comp c).state = t then (s.comp c).timer else none

/-- POINT_DEADLINE_EXPIRY (R8). -/
def execPointDeadlineExpiry (i : Fin 192) (s : State) : Host.Outcome State Fault Refusal :=
  s.event fun s => s.expire (s.pointDeadline i.val) fun s => s.pointExpired i.val

/-- REFRESH_DEADLINE_EXPIRY (R28). -/
def execRefreshDeadlineExpiry (i : Fin 192) (s : State) : Host.Outcome State Fault Refusal :=
  s.event fun s => s.expire (s.refreshDeadline i.val) fun s => s.placeCommand i.val

/-- DISCREPANCY_DEADLINE_EXPIRY (R30). -/
def execDiscrepancyDeadlineExpiry (i : Fin 192) (s : State) : Host.Outcome State Fault Refusal :=
  s.event fun s => s.expire (s.discrepancyDeadline i.val) fun s => s.discrepant i.val

/-- TRIP_SETTLE_EXPIRY (R37). -/
def execTripSettleExpiry (s : State) : Host.Outcome State Fault Refusal :=
  s.event fun s => s.expire s.points.settle State.settleExpired

/-- COUPLE_TIMER_EXPIRY (R76, R77). -/
def execCoupleTimerExpiry (p : Fin 6) (s : State) : Host.Outcome State Fault Refusal :=
  s.event fun s => s.expire (s.seq p).couple fun s => s.coupleExpired p

/-- HOLD_LIMIT_EXPIRY (R81, R92). -/
def execHoldLimitExpiry (p : Fin 6) (s : State) : Host.Outcome State Fault Refusal :=
  s.event fun s => s.expire (s.seq p).holdLimit fun s => s.holdExpired p

/-- PULSE_OPEN_END (R82). -/
def execPulseOpenEnd (p : Fin 6) (s : State) : Host.Outcome State Fault Refusal :=
  s.event fun s => s.expire (s.pulseDeadline p .opening) fun s => s.openEnd p

/-- PULSE_SETTLE_END (R83). -/
def execPulseSettleEnd (p : Fin 6) (s : State) : Host.Outcome State Fault Refusal :=
  s.event fun s => s.expire (s.pulseDeadline p .settling) fun s => s.settleEnd p

/-- VENT_TIMER_EXPIRY (R94). -/
def execVentTimerExpiry (p : Fin 6) (s : State) : Host.Outcome State Fault Refusal :=
  s.event fun s => s.expire (s.seq p).ventTimer fun s => s.ventExpired p

/-- LINK_TIMER_EXPIRY (R120). -/
def execLinkTimerExpiry (p : Fin 6) (s : State) : Host.Outcome State Fault Refusal :=
  s.event fun s => s.expire ((s.seq p).link.bind LinkState.timer) fun s => s.linkExpired p

/-- METER_DEADLINE_EXPIRY (R171). -/
def execMeterDeadlineExpiry (p : Fin 6) (s : State) : Host.Outcome State Fault Refusal :=
  s.event fun s => s.expire (s.sales.intake.get p).deadline fun s => s.meterExpired p

/-- START_TIMER_EXPIRY (R143, R148). -/
def execStartTimerExpiry (c : Fin 2) (s : State) : Host.Outcome State Fault Refusal :=
  s.event fun s => s.expire (s.compTimer c .starting) fun s => s.startExpired c

/-- RUN_TIMER_EXPIRY (R146). -/
def execRunTimerExpiry (c : Fin 2) (s : State) : Host.Outcome State Fault Refusal :=
  s.event fun s => s.expire (s.compTimer c .unloaded) fun s => s.runExpired c

/-- LOCKOUT_EXPIRY (R147). -/
def execLockoutExpiry (c : Fin 2) (s : State) : Host.Outcome State Fault Refusal :=
  s.event fun s => s.expire (s.compTimer c .lockout) fun s => s.lockoutExpired c

/-- CATEGORY_SETTLE_EXPIRY (R163). -/
def execCategorySettleExpiry (p : Fin 6) (s : State) : Host.Outcome State Fault Refusal :=
  s.event fun s => s.expire (s.cool.monitors.get p).settle fun s => s.mapMonitor p fun m => { m with settle := none }

/-- GRACE_TIMER_EXPIRY (R164). -/
def execGraceTimerExpiry (p : Fin 6) (s : State) : Host.Outcome State Fault Refusal :=
  s.event fun s => s.expire (s.cool.monitors.get p).grace fun s => s.graceExpired p

end Sys2Proof.Machine
end

