-- ==== Sys2Proof/Machine/Power.lean ====
section
/-! DEFINITION. Meanings of the pins and resets: the trip line, power-up and the reset input (R33, R34, R36, R67, R74,
R108, R138, R152, R167, R171, R185, R186, R200). -/

namespace Sys2Proof.Machine

/-! ## The trip line -/

/-- TRIP_LINE_LOW: a trip source when the line becomes low while the part's drive is released (R33, R36). -/
def execTripLineLow (s : State) : Host.Outcome State Fault Refusal :=
  s.event fun s =>
    let was := s.lineLow
    let s := s.mapPoints fun u => { u with linePulled := true }
    if was then s else s.tripSource .line none

/-- TRIP_LINE_HIGH: no source; the line reads high unless the part drives it (R33, R36). -/
def execTripLineHigh (s : State) : Host.Outcome State Fault Refusal :=
  s.event fun s => s.mapPoints fun u => { u with linePulled := false }

/-! ## Power-up -/

/-- A slot at a power-up with the retention store valid: bind counts and reference densities are not retained, the
densities of an ACTIVE GAS slot are computed again (R45, R67). -/
def Slot.restored (t : Slot) (kind : TableKind) (binds : Nat) : Slot :=
  { t with binds := binds, refs := if kind = .gas ∧ t.role = .active then some t.references else none }

/-- RESERVED and OPEN records (R66). -/
def SaleRecord.bound (r : SaleRecord) : Bool := r.state != .closed

/-- Records bound to a slot, counted from the log (R67). -/
def bindCount (log : List (Option SaleRecord)) (ref : Bind → SlotRef) (id : SlotId) : Nat :=
  log.countP fun r => r.any fun r => r.bound && (ref r.bind).slot == id

/-- A kind's slots restored (R67). -/
def KindStore.restored (k : KindStore) (kind : TableKind) (count : SlotId → Nat) : KindStore :=
  { k with slotA := k.slotA.restored kind (count .a), slotB := k.slotB.restored kind (count .b) }

/-- The table store at a power-up with the retention store valid (R67). -/
def TableStore.restored (t : TableStore) (log : List (Option SaleRecord)) : TableStore where
  gas      := t.gas.restored .gas (bindCount log Bind.gas)
  protocol := t.protocol.restored .protocol (bindCount log Bind.protocol)
  tariff   := t.tariff.restored .tariff (bindCount log Bind.tariff)
  site     := t.site.restored .site fun _ => 0

/-- A contract's reserved mass counted from the log (R185 step 1). -/
def Contract.recount (log : List (Option SaleRecord)) (c : Contract) : Contract :=
  { c with reserved :=
      (log.map fun r =>
        match r with
        | some r => if r.bound ∧ r.contract = some c.id then r.reservation.getD 0 else 0
        | none => 0).sum }

/-- The sales unit as the retention store gives it back (R184, R185). -/
def Sales.restored (u : Sales) : Sales :=
  { u with intake := Six.all Intake.start, contracts := u.contracts.map (Contract.recount u.log), retentionLost := false }

/-- The sales unit at a power-up with the retention store lost (R185). -/
def Sales.lost : Sales := { State.reset.sales with retentionLost := true }

/-- What every power-up starts with, the retained blocks apart (R74, R138, R152, R167, R186, R197, R200).  The pin and the
waiting commands are not the part's.  The minute mark starts at 0, and so does the arrival counter also where the store is
lost; the scheduler's copies and the setpoint's mark then start as they do with SITE retained (DESIGN CHOICE,
notes/assumptions/41.md). -/
def State.powerOn (s : State) (straps : NodeAddr) : State :=
  { s with
    ring :=
      { strap := straps, forwarding := [], commands := [], responses := [], deferred := none, answering := false,
        notices := [], sending := none, drops := 0, discards := 0 }
    points :=
      { records := List.replicate Config.pointCount .empty, pairs := Six.all Pair.start, trip := .clear, cause := none,
        settle := none, linePulled := s.points.linePulled }
    seqs := Six.all Seq.start
    banks := Six.all BankLive.start
    draws := Six.all Draw.empty
    sched := { queue := [], arrivals := 0, comps := Two.all CompRecord.start, copies := Six.all BankCopy.start }
    cool :=
      { band := 5, capacity := 0, table := [], stamps := 0, queue := [], monitors := Six.all Monitor.start,
        fromScan := false }
    events := { flags := List.replicate 46 none, enable := BitVec.allOnes 14 }
    time := { count := 0, valid := false, minute := 0, day := 0, mark := 0, sinceBeacon := 0 }
    handOvers := [] }

/-- A record of a position at power-up: an OPEN one closed with its position in DONE, a RESERVED one freed without a
SALE frame (R74, R185). -/
def State.settleRecord (s : State) (p : Pos) : State :=
  match s.saleOf p with
  | some r =>
    if r.state = .opened then (s.closeRecord p .powerLoss none).mapSeq p fun q => { q with state := .done }
    else s.freeRecord p .powerLoss false
  | none => s

/-- The SITE slot retained as ACTIVE is handed to the blocks (R4, R22, R67, R115, R152, R167). -/
def State.restoreSite (s : State) : State :=
  if s.site.isSome then
    let s := { s with seqs := s.seqs.map Seq.fresh }
    (s.powerUpSched.buildPoints).writeRest.recomputeBand.recomputeSetpoint
  else s

/-- LOG_NEAR_FULL at a power-up with 8 or fewer FREE records (R185 step 4). -/
def State.checkFree (s : State) : State := if s.freeRecords ≤ Config.nearFull then s.noteNearFull else s

/-- A power-up with the retention store valid (R185).  The owning jobs' AUTO writes and the closures come first, then the
examination of line and detectors (R34), so that a trip found there halts a position started in DONE, then LOG_NEAR_FULL;
the rules give these no order among themselves (DESIGN CHOICE, notes/assumptions/45.md). -/
def State.powerUpValid (s : State) (straps : NodeAddr) : State :=
  let s := s.powerOn straps
  let s := { s with tables := s.tables.restored s.sales.log, sales := s.sales.restored }
  let s := s.restoreSite
  let s := sixIndices.foldl State.settleRecord s
  s.examineTrip.checkFree

/-- A power-up with the retention store lost (R67, R108, R185); TRIP is set before RETENTION_LOST (DESIGN CHOICE,
notes/assumptions/45.md). -/
def State.powerUpLost (s : State) (straps : NodeAddr) : State :=
  let s := s.powerOn straps
  let s := { s with tables := TableStore.lost, sales := Sales.lost, reactions := defaultReactions }
  s.examineTrip.setFlag .retentionLost .station .none

/-- A start of the part (R200). -/
def State.start (s : State) (straps : NodeAddr) (retained : Bool) : State :=
  if retained then s.powerUpValid straps else s.powerUpLost straps

/-- POWER_UP (R200). -/
def execPowerUp (straps : NodeAddr) (retained : Bool) (s : State) : Host.Outcome State Fault Refusal :=
  s.event fun s => s.start straps retained

/-- RESET_INPUT: the part starts as at power-up (R4, R186, R200). -/
def execResetInput (straps : NodeAddr) (retained : Bool) (s : State) : Host.Outcome State Fault Refusal :=
  s.event fun s => s.start straps retained

end Sys2Proof.Machine
end

