-- ==== Sys2Proof/Machine/Dispatch.lean ====
section
/-! DEFINITION. The meaning of every command: one arm for each constructor of `Instr`. -/

namespace Sys2Proof.Machine

/-- What a command does to everything but the queue of waiting commands. -/
def exec (i : Instr) (s : State) : Host.Outcome State Fault Refusal :=
  match i with
  | .sample h readings => Sys2Proof.Machine.execSample h readings s
  | .total h totaliser status => Sys2Proof.Machine.execTotal h totaliser status s
  | .link h pressure temperature status command => Sys2Proof.Machine.execLink h pressure temperature status command s
  | .command h channel value => Sys2Proof.Machine.execCommand h channel value s
  | .authorize h position reference card contract preset value => Sys2Proof.Machine.execAuthorize h position reference card contract preset value s
  | .cancel h position reference => Sys2Proof.Machine.execCancel h position reference s
  | .unknownPayRequest h request position reference => Sys2Proof.Machine.execUnknownPayRequest h request position reference s
  | .beacon h day minute milli => Sys2Proof.Machine.execBeacon h day minute milli s
  | .forwardedFrame f => Sys2Proof.Machine.execForwardedFrame f s
  | .badFrame words => Sys2Proof.Machine.execBadFrame words s
  | .ownFrameStripped f => Sys2Proof.Machine.execOwnFrameStripped f s
  | .unknownMreq h code content => Sys2Proof.Machine.execUnknownMreq h code content s
  | .statusRead h => Sys2Proof.Machine.execStatusRead h s
  | .positionRead h position => Sys2Proof.Machine.execPositionRead h position s
  | .bankRead h bank => Sys2Proof.Machine.execBankRead h bank s
  | .compressorRead h compressor => Sys2Proof.Machine.execCompressorRead h compressor s
  | .coolingRead h => Sys2Proof.Machine.execCoolingRead h s
  | .tableQuery h kind => Sys2Proof.Machine.execTableQuery h kind s
  | .tableClear h kind slot => Sys2Proof.Machine.execTableClear h kind slot s
  | .tableWrite h kind slot segment content => Sys2Proof.Machine.execTableWrite h kind slot segment content s
  | .tableActivate h kind slot => Sys2Proof.Machine.execTableActivate h kind slot s
  | .contractWrite h id state tier mask quota => Sys2Proof.Machine.execContractWrite h id state tier mask quota s
  | .contractRead h id => Sys2Proof.Machine.execContractRead h id s
  | .contractDelete h id => Sys2Proof.Machine.execContractDelete h id s
  | .pointRead h point => Sys2Proof.Machine.execPointRead h point s
  | .pointManual h point value => Sys2Proof.Machine.execPointManual h point value s
  | .reactionWrite h condition stateClass reaction => Sys2Proof.Machine.execReactionWrite h condition stateClass reaction s
  | .reactionRead h condition => Sys2Proof.Machine.execReactionRead h condition s
  | .logPeek h => Sys2Proof.Machine.execLogPeek h s
  | .logRead h number => Sys2Proof.Machine.execLogRead h number s
  | .logRelease h number => Sys2Proof.Machine.execLogRelease h number s
  | .eventTake h => Sys2Proof.Machine.execEventTake h s
  | .eventClear h mask => Sys2Proof.Machine.execEventClear h mask s
  | .eventEnable h mask => Sys2Proof.Machine.execEventEnable h mask s
  | .positionStop h position => Sys2Proof.Machine.execPositionStop h position s
  | .positionDisable h position => Sys2Proof.Machine.execPositionDisable h position s
  | .positionEnable h position => Sys2Proof.Machine.execPositionEnable h position s
  | .positionReset h position => Sys2Proof.Machine.execPositionReset h position s
  | .compressorReset h compressor => Sys2Proof.Machine.execCompressorReset h compressor s
  | .compressorDisable h compressor => Sys2Proof.Machine.execCompressorDisable h compressor s
  | .compressorEnable h compressor => Sys2Proof.Machine.execCompressorEnable h compressor s
  | .bankDisable h bank => Sys2Proof.Machine.execBankDisable h bank s
  | .bankEnable h bank => Sys2Proof.Machine.execBankEnable h bank s
  | .tripSet h => Sys2Proof.Machine.execTripSet h s
  | .tripReset h => Sys2Proof.Machine.execTripReset h s
  | .restart h => Sys2Proof.Machine.execRestart h s
  | .pointDeadlineExpiry point => Sys2Proof.Machine.execPointDeadlineExpiry point s
  | .refreshDeadlineExpiry point => Sys2Proof.Machine.execRefreshDeadlineExpiry point s
  | .discrepancyDeadlineExpiry point => Sys2Proof.Machine.execDiscrepancyDeadlineExpiry point s
  | .tripSettleExpiry => Sys2Proof.Machine.execTripSettleExpiry s
  | .coupleTimerExpiry position => Sys2Proof.Machine.execCoupleTimerExpiry position s
  | .holdLimitExpiry position => Sys2Proof.Machine.execHoldLimitExpiry position s
  | .pulseOpenEnd position => Sys2Proof.Machine.execPulseOpenEnd position s
  | .pulseSettleEnd position => Sys2Proof.Machine.execPulseSettleEnd position s
  | .ventTimerExpiry position => Sys2Proof.Machine.execVentTimerExpiry position s
  | .linkTimerExpiry position => Sys2Proof.Machine.execLinkTimerExpiry position s
  | .meterDeadlineExpiry position => Sys2Proof.Machine.execMeterDeadlineExpiry position s
  | .startTimerExpiry compressor => Sys2Proof.Machine.execStartTimerExpiry compressor s
  | .runTimerExpiry compressor => Sys2Proof.Machine.execRunTimerExpiry compressor s
  | .lockoutExpiry compressor => Sys2Proof.Machine.execLockoutExpiry compressor s
  | .categorySettleExpiry position => Sys2Proof.Machine.execCategorySettleExpiry position s
  | .graceTimerExpiry position => Sys2Proof.Machine.execGraceTimerExpiry position s
  | .minuteAdvance => Sys2Proof.Machine.execMinuteAdvance s
  | .transmitComplete => Sys2Proof.Machine.execTransmitComplete s
  | .tripLineLow => Sys2Proof.Machine.execTripLineLow s
  | .powerUp straps retained => Sys2Proof.Machine.execPowerUp straps retained s
  | .resetInput straps retained => Sys2Proof.Machine.execResetInput straps retained s
  | .tripLineHigh => Sys2Proof.Machine.execTripLineHigh s

end Sys2Proof.Machine
end

