-- ==== Sys2Proof/Machine/Idle.lean ====
section
/-! DEFINITION. The part's own time: which expiry is due, and the millisecond counter (R197; DESIGN CHOICE,
notes/assumptions/6.md). -/

namespace Sys2Proof.Machine

/-- A running deadline has been reached (R197). -/
def State.due (s : State) (d : Option Count) : Bool := d.any s.reached

/-- A due expiry of a point. -/
def State.pointDue (s : State) (i : Fin 192) : Option Instr :=
  if s.due (s.pointDeadline i.val) then some (.pointDeadlineExpiry i)
  else if s.due (s.refreshDeadline i.val) then some (.refreshDeadlineExpiry i)
  else if s.due (s.discrepancyDeadline i.val) then some (.discrepancyDeadlineExpiry i)
  else none

/-- A due expiry of a position. -/
def State.positionDue (s : State) (p : Pos) : Option Instr :=
  let q := s.seq p
  if s.due q.couple then some (.coupleTimerExpiry p)
  else if s.due q.holdLimit then some (.holdLimitExpiry p)
  else if s.due (s.pulseDeadline p .opening) then some (.pulseOpenEnd p)
  else if s.due (s.pulseDeadline p .settling) then some (.pulseSettleEnd p)
  else if s.due q.ventTimer then some (.ventTimerExpiry p)
  else if s.due (q.link.bind LinkState.timer) then some (.linkTimerExpiry p)
  else if s.due (s.sales.intake.get p).deadline then some (.meterDeadlineExpiry p)
  else if s.due (s.cool.monitors.get p).settle then some (.categorySettleExpiry p)
  else if s.due (s.cool.monitors.get p).grace then some (.graceTimerExpiry p)
  else none

/-- A due expiry of a compressor. -/
def State.compressorDue (s : State) (c : Comp) : Option Instr :=
  if s.due (s.compTimer c .starting) then some (.startTimerExpiry c)
  else if s.due (s.compTimer c .unloaded) then some (.runTimerExpiry c)
  else if s.due (s.compTimer c .lockout) then some (.lockoutExpiry c)
  else none

/-- The points whose expiries are looked at. -/
def pointFins : List (Fin 192) := pointIndices.filterMap fun i => if h : i < 192 then some ⟨i, h⟩ else none

/-- The first due expiry: points, positions, compressors, the trip settle, the minute. -/
def State.dueCommand (s : State) : Option Instr :=
  (pointFins.findSome? s.pointDue).or <|
    (sixIndices.findSome? s.positionDue).or <|
      (twoIndices.findSome? s.compressorDue).or <|
        if s.due s.points.settle then some .tripSettleExpiry
        else if s.time.valid && s.reached s.time.minuteEnd then some .minuteAdvance
        else none

/-- A millisecond passes (R197). -/
def State.tick (s : State) : State := s.mapTime fun t => { t with count := t.count + 1 }

end Sys2Proof.Machine
end

