-- ==== Sys2Proof/Machine/Step.lean ====
section
/-! DEFINITION. One step: the command at the front of the queue, or, on an empty queue, the part's own time
(DESIGN CHOICE, notes/assumptions/6.md). -/

namespace Sys2Proof.Machine

/-- A step takes the command at the front of the queue and carries it out with the rest of the queue; on an empty queue
the part's time goes on. -/
def step (s : State) : Host.Outcome State Fault Refusal :=
  match s.pending with
  | i :: q => exec i (s.setPending q)
  | [] =>
    match s.dueCommand with
    | some i => exec i s
    | none => .next s.tick

/-- The command a word spells, put at the front of the queue; no row of the table has bits, so no word spells one. -/
def State.withFetchWord (s : State) (nbits w : Nat) : State :=
  match decodeTableWord nbits w with
  | some i => s.setPending (i :: s.pending)
  | none => s

end Sys2Proof.Machine
end

