-- ==== Sys2Proof/Safety.lean ====
section
/-! DEFINITION. What claims about the machine speak of: the frame a command stands for, when an arriving frame reaches
the rules of its kind, and the states that are safe or keep the part's buffers in bounds. -/

namespace Sys2Proof

/-! ## Commands by the frame they stand for -/

/-- The frame of a command that is a good frame; a bad frame, a timer and a pin have none (section 12.10). -/
def Instr.frame : Instr → Option Frame
  | .sample h l => some (Machine.sampleFrame h l)
  | .total h totaliser st => some (Machine.totalFrame h totaliser st)
  | .link h pressure temp st c => some (Machine.linkFrame h pressure temp st c)
  | .command h channel value => some (Machine.commandFrame h channel value)
  | .authorize h position reference card contract preset value =>
    some (Machine.payFrame h (Machine.Order.payload ⟨position, reference, card, contract, preset, value⟩))
  | .cancel h position reference =>
    some (Machine.payFrame h ([2, position] ++ Machine.wordsOf32 reference.toNat))
  | .unknownPayRequest h request position reference =>
    some (Machine.payFrame h ([request, position] ++ Machine.wordsOf32 reference.toNat))
  | .beacon h day minute milli => some (Machine.beaconFrame h day minute milli)
  | .forwardedFrame f | .ownFrameStripped f => some f
  | .unknownMreq h code content => some ⟨h, 8, code.toList ++ content⟩
  | .statusRead h => some (Machine.mreqFrame h 1 [])
  | .positionRead h w => some (Machine.mreqFrame h 2 [w])
  | .bankRead h w => some (Machine.mreqFrame h 3 [w])
  | .compressorRead h w => some (Machine.mreqFrame h 4 [w])
  | .coolingRead h => some (Machine.mreqFrame h 5 [])
  | .tableQuery h kind => some (Machine.mreqFrame h 6 [kind])
  | .tableClear h kind slot => some (Machine.mreqFrame h 7 [kind, slot])
  | .tableWrite h kind slot segment content => some (Machine.mreqFrame h 8 ([kind, slot, segment] ++ content))
  | .tableActivate h kind slot => some (Machine.mreqFrame h 9 [kind, slot])
  | .contractWrite h id state tier mask quota =>
    some (Machine.mreqFrame h 10 ([id, state, tier, mask] ++ Machine.wordsOf32 quota.toNat))
  | .contractRead h id => some (Machine.mreqFrame h 11 [id])
  | .contractDelete h id => some (Machine.mreqFrame h 12 [id])
  | .pointRead h point => some (Machine.mreqFrame h 13 [point])
  | .pointManual h point value => some (Machine.mreqFrame h 14 [point, value])
  | .reactionWrite h condition stateClass reaction =>
    some (Machine.mreqFrame h 15 [condition, stateClass, reaction])
  | .reactionRead h condition => some (Machine.mreqFrame h 16 [condition])
  | .logPeek h => some (Machine.mreqFrame h 17 [])
  | .logRead h number => some (Machine.mreqFrame h 18 (Machine.wordsOf32 number.toNat))
  | .logRelease h number => some (Machine.mreqFrame h 19 (Machine.wordsOf32 number.toNat))
  | .eventTake h => some (Machine.mreqFrame h 20 [])
  | .eventClear h mask => some (Machine.mreqFrame h 21 [mask])
  | .eventEnable h mask => some (Machine.mreqFrame h 22 [mask])
  | .positionStop h w => some (Machine.mreqFrame h 23 [w])
  | .positionDisable h w => some (Machine.mreqFrame h 24 [w])
  | .positionEnable h w => some (Machine.mreqFrame h 25 [w])
  | .positionReset h w => some (Machine.mreqFrame h 26 [w])
  | .compressorReset h w => some (Machine.mreqFrame h 27 [w])
  | .compressorDisable h w => some (Machine.mreqFrame h 28 [w])
  | .compressorEnable h w => some (Machine.mreqFrame h 29 [w])
  | .bankDisable h w => some (Machine.mreqFrame h 30 [w])
  | .bankEnable h w => some (Machine.mreqFrame h 31 [w])
  | .tripSet h => some (Machine.mreqFrame h 32 [])
  | .tripReset h => some (Machine.mreqFrame h 33 [])
  | .restart h => some (Machine.mreqFrame h 34 [])
  | .badFrame _ | .pointDeadlineExpiry _ | .refreshDeadlineExpiry _ | .discrepancyDeadlineExpiry _ | .tripSettleExpiry
  | .coupleTimerExpiry _ | .holdLimitExpiry _ | .pulseOpenEnd _ | .pulseSettleEnd _ | .ventTimerExpiry _
  | .linkTimerExpiry _ | .meterDeadlineExpiry _ | .startTimerExpiry _ | .runTimerExpiry _ | .lockoutExpiry _
  | .categorySettleExpiry _ | .graceTimerExpiry _ | .minuteAdvance | .transmitComplete | .tripLineLow | .powerUp _ _
  | .resetInput _ _ | .tripLineHigh => none

/-- The header and the request code of a command that is an MREQ frame; a frame with no words has the free code (R191). -/
def Instr.request (i : Instr) : Option (Header × Word) :=
  match i with
  | .forwardedFrame _ | .ownFrameStripped _ => none
  | _ => i.frame.bind fun f => if f.kind = 8 then some (f.hdr, Machine.requestCode f.hdr f.payload) else none

/-- The header of a command that is an MREQ or a PAY frame (R187). -/
def Instr.asks (i : Instr) : Option Header :=
  match i with
  | .forwardedFrame _ | .ownFrameStripped _ => none
  | _ => i.frame.bind fun f => if f.kind = 8 ∨ f.kind = 5 then some f.hdr else none

namespace Machine

/-! ## Where an arriving frame goes (R186, R187, R191, R192) -/

/-- No hand-over waits: every event ends so. -/
def State.quiescent (s : State) : Prop := s.handOvers = []

/-- A frame with this header is not one of the part's own, and the part is addressed (R186, R187). -/
structure State.Hears (s : State) (h : Header) : Prop where
  quiet     : s.quiescent
  addressed : s.addressed = true
  foreign   : h.src ≠ s.ring.strap

/-- A frame with this header is consumed: it is addressed to the part (R187). -/
structure State.Consumes (s : State) (h : Header) : Prop extends s.Hears h where
  mine : h.dst = s.ring.strap

/-- A request with this header is taken: it is consumed, and the response queue has a place (R191, R192). -/
structure State.Takes (s : State) (h : Header) : Prop extends s.Consumes h where
  place : s.ring.hasPlace = true

/-- An MREQ with this header is carried out: it is taken, and its source may supervise (R191). -/
structure State.Accepts (s : State) (h : Header) : Prop extends s.Takes h where
  supervisor : s.notSupervisor h = false

/-- A frame the part copies inward and forwards, the buffer having a place (R187, R188). -/
structure State.Copies (s : State) (h : Header) : Prop extends s.Hears h where
  other : h.dst ≠ s.ring.strap
  room  : s.ring.forwarding.length < Config.forwardingPlaces

/-- The state after a frame has joined the forwarding buffer (R188, R189). -/
def State.forwarded (s : State) (f : Frame) : State :=
  s.mapRing fun r => { r with forwarding := r.forwarding ++ [f] }.arbitrate

/-- A frame the part copies inward is taken in state `b`: at once where it is consumed, and after it has joined the
forwarding buffer otherwise (R187, R188). -/
inductive State.Receives (s : State) (f : Frame) : State → Prop
  | consumed : s.Consumes f.hdr → s.Receives f s
  | copied : s.Copies f.hdr → s.Receives f (s.forwarded f)

/-- A SAMPLE frame of one reading `r` is taken, in state `b`, for sensor point `i` with entry `e` and record `old` (R5). -/
structure State.Reads (s : State) (h : Header) (r : Reading) (b : State) (i : Nat) (e : PointEntry) (old : LiveRecord) :
    Prop where
  frame  : s.Receives (sampleFrame h [r]) b
  point  : s.pointAt h.src.toNat r.channel = some i
  entry  : s.entry i = some e
  record : s.live i = some old

/-! ## Positions, compressors -/

/-- AUTHORIZED to HOLD: the states of a fill before its VENT (R73). -/
def PosState.beforeVent (t : PosState) : Bool := t.flowing || t == .authorized || t == .admitting

/-- LOCKOUT, FAULTED and DISABLED: states a compressor leaves by an expiry or a request alone (R142). -/
def CompState.resting (t : CompState) : Bool := t == .lockout || t == .faulted || t == .disabled

/-- A STOPPED compressor may not start: the trip latch is set, or its DISCHARGE_T is not ready (R142). -/
def State.startBlocked (s : State) (c : Comp) : Bool := s.latched || !s.dischargeReady c

/-- Some bank of the position's class sequence suits an empty tank: it is AVAILABLE, routed to the position, and stands at
least the switch differential above 0 (R79, R127, R128). -/
def State.Supplied (s : State) (p : Pos) : Prop :=
  ∃ b ∈ s.sequence (s.cls p),
    (s.bank b).state = .available ∧ s.routed p b = true ∧ ((s.header p).switchDiff : Int) ≤ (s.bank b).pressure.num

/-- The levels of R12 raise nothing at a position: each that `t` has is active in `s` already. -/
structure State.Calm (s t : State) (p : Pos) : Prop where
  stale    : t.stalePoints p ≠ [] → (s.seq p).active.sensorStale = true
  disagree : (t.points.pairs.get p).state = .disagree → (s.seq p).active.sensorDisagree = true

/-! ## Bills (R178) -/

/-- The amount of a billed mass before it is saturated: by the record's unit price, rounded as the bound TARIFF says, HALF_UP
where its rounding mode is 0 (R178 step 5). -/
def State.exactAmount (s : State) (r : SaleRecord) (billed : Nat) : Nat :=
  (billed * r.price + (if (s.tables.tariff.slot r.bind.tariff.slot).rounding = 0 then 5000 else 0)) / 10000

/-- Record `q` is record `r` with the masses, the amount and the marks of a closure with vent mass `v` (R178 steps 2 to 6). -/
structure State.Bills (s : State) (r q : SaleRecord) (v : VentMass) : Prop where
  gross    : q.gross = r.gross
  vent     : q.vent = some v
  net      : q.net = r.gross - v.grams
  whole    : r.card = .retail → r.preset ≠ .amount → q.billed = q.net
  limited  : r.card = .retail → r.preset = .amount → q.billed = min q.net r.effective
  reserved : r.card = .fleet → q.billed = min q.net (r.reservation.getD 0)
  overrun  : q.overrun = q.net - q.billed
  amount   : q.amount = min (s.exactAmount r q.billed) 99999999
  marks    : q.marks =
    { r.marks with
      clamped := r.marks.clamped || decide (99999999 < s.exactAmount r q.billed) || v.clamped,
      degradedPressure := r.marks.degradedPressure || v.quality != .good }

/-! ## The fill valve, PULSE entry, lane scans and the chiller setpoint -/

/-- The fill valve of a position has been written `v`: its AUTO value is `v` in the point's value set, and the effective value
with it where the owner is AUTO (R21, R22, R25). -/
def State.FillWritten (s t : State) (p : Pos) (v : Nat) : Prop :=
  ∀ i e r, s.findPoint .fillValve (.position p) = some i → s.entry i = some e → s.act i = some r →
    ∃ q, t.act i = some q ∧ q.auto = e.clampAct v ∧ q.owner = r.owner ∧
      q.effective = if r.owner = .auto then e.clampAct v else r.effective

/-- The meter of a position can count its fill: the position has one, its intake is FRESH and HEALTHY, and there is a baseline
(R171). -/
def State.MeterReady (s : State) (p : Pos) : Prop :=
  (∃ k, s.posSite p = some k ∧ k.meter ≠ 0) ∧ (s.sales.intake.get p).freshness = .fresh ∧
    (s.sales.intake.get p).healthy = true ∧ (s.sales.intake.get p).baseline ≠ none

/-- A level condition is active and has not been raised since the authorization, so that PULSE entry answers it (R104). -/
def State.Carries (s : State) (p : Pos) (c : Condition) : Prop :=
  c.isLevel = true ∧ (s.seq p).active.has c = true ∧ (s.seq p).raised.has c = false

/-- The vehicle's stored command is HALT (R117, R122). -/
def State.VehicleWaits (s : State) (p : Pos) : Prop := ∃ l, (s.seq p).link = some l ∧ l.command = .halt

/-- The record of a position has been opened: OPEN, with its start category, gross mass 0, and marked METER_SUSPECT where the
meter cannot count the fill (R171, R177). -/
def State.RecordOpened (s t : State) (p : Pos) (k : Category) : Prop :=
  ∀ i r, s.recordSlot p = some i → s.logAt i = some r →
    ∃ m, t.logAt i = some
      { r with state := .opened, startCat := some k, gross := 0, marks := { r.marks with meterSuspect := m } } ∧
      (m = true ↔ r.marks.meterSuspect = true ∨ ¬s.MeterReady p)

/-- A position has entered PULSE with category `k` in band `b`: its context, but for the two pressures the pulse records later,
its record and its fill valve (R80, R82, R177). -/
structure State.Pulses (s t : State) (p : Pos) (k : Category) (b : Fin 6) : Prop where
  context : t.seq p =
    { s.seq p with
      state := .pulse, holdLimit := none, category := some k, band := some b, causes := HoldCauses.empty, window := [],
      pulse := some (s.time.count + BitVec.ofNat 32 (s.header p).pulseOpen), phase := .opening,
      settleP := (t.seq p).settleP, initialP := (t.seq p).initialP }
  record  : s.RecordOpened t p k
  valve   : s.FillWritten t p (s.header p).pulseOpening

/-- `o` is the lane scan for the greatest of the values `v` of the positions in PULSE, RAMP, SWITCH and HOLD: that value at the
lowest of the positions that have it, with the worst quality and any CLAMPED mark of them all (R16, R17). -/
def State.Scans (s : State) (v : Pos → Value) : Option Scan → Prop
  | none => ∀ p, (s.seq p).state.flowing = false
  | some x =>
    (s.seq x.lane).state.flowing = true ∧ (v x.lane).num = x.value.num ∧
    (∀ p, (s.seq p).state.flowing = true →
      (v p).num ≤ x.value.num ∧ ((v p).num = x.value.num → x.lane.val ≤ p.val) ∧
      x.value.quality.worst (v p).quality = x.value.quality) ∧
    (∃ p, (s.seq p).state.flowing = true ∧ (v p).quality = x.value.quality) ∧
    (x.value.clamped = true ↔ ∃ p, (s.seq p).state.flowing = true ∧ (v p).clamped = true)

/-- A position in PULSE, RAMP, SWITCH or HOLD has category `k` (R165). -/
def State.FlowsAt (s : State) (p : Pos) (k : Category) : Prop :=
  (s.seq p).state.flowing = true ∧ (s.seq p).category = some k

/-- The AUTO value of the CHILLER_SETPOINT point is the one of R165: the least category limit of the flowing positions in the
ACTIVE PROTOCOL slot less its margin, and the idle setpoint where no slot is ACTIVE or nothing flows (R17, R165). -/
def State.SetpointStands (s : State) : Prop :=
  ∀ k i r, s.station = some k → s.findPoint .chillerSetpoint .station = some i → s.act i = some r →
    let stands := fun (v : Int) (scan : Bool) => r.auto = min (max v (-600)) 1000 ∧ s.cool.fromScan = scan
    (s.protocol = none ∨ (∀ p c, ¬s.FlowsAt p c) → stands k.idleSet false) ∧
    ∀ g p c, s.protocol = some g → s.FlowsAt p c →
      (∀ q d, s.FlowsAt q d → g.categoryLimit c ≤ g.categoryLimit d) → stands (g.categoryLimit c - g.margin) true

/-- A fill has taken category `k`: its grace timer is stopped, and in RAMP the ramp is re-based at the last target and the
category settle timer restarted (R49, R85, R89, R163, R164). -/
structure State.Recategorised (s u : State) (p : Pos) (k : Category) : Prop where
  grace  : (u.cool.monitors.get p).grace = none
  inRamp : (s.seq p).state = .ramp →
    u.seq p =
      { s.seq p with
        category := some k, rampBase := (s.seq p).target.map Target.target, rampMark := s.time.count, window := [] } ∧
    (u.cool.monitors.get p).settle = some (s.time.count + BitVec.ofNat 32 (s.header p).catSettle)
  paused : (s.seq p).state ≠ .ramp →
    u.seq p = { s.seq p with category := some k } ∧
    (u.cool.monitors.get p).settle = (s.cool.monitors.get p).settle

/-! ## The station trip at positions and compressors (R114, R150) -/

/-- What a trip of the station has made of the positions with their records, and of the compressors. -/
structure State.Tripped (s t : State) : Prop where
  /-- IDLE, OUT_OF_SERVICE and HALTED: no change. -/
  still      : ∀ p, (s.seq p).state = .idle ∨ (s.seq p).state = .outOfService ∨ (s.seq p).state = .halted →
    (t.seq p).state = (s.seq p).state
  /-- AUTHORIZED and ADMIT: the fill is cancelled and its record freed (R78). -/
  cancelled  : ∀ p, (s.seq p).state = .authorized ∨ (s.seq p).state = .admitting →
    (t.seq p).state = (if (s.seq p).state = .authorized ∨ s.nozzleIs p 0 = true then .idle else .done) ∧
    (t.seq p).sale = none ∧ t.draw p = Draw.empty ∧ t.cool.allocOf (.position p) = none ∧
    ∀ i, s.recordSlot p = some i → t.logAt i = none
  /-- PULSE to VENT, and DONE: HALTED, with the fill items cleared and everything given up (R97). -/
  halted     : ∀ p, (s.seq p).state.metered = true ∨ (s.seq p).state = .done →
    t.seq p =
      { Seq.start with
        state := .halted, lastP := (s.seq p).lastP, lastValidP := (s.seq p).lastValidP, active := (s.seq p).active,
        overTest := (s.seq p).overTest } ∧
    t.draw p = Draw.empty ∧ t.cool.allocOf (.position p) = none
  /-- An OPEN record is closed with reason TRIP and billed (R177, R178). -/
  closed     : ∀ p i r, (s.seq p).state.metered = true ∨ (s.seq p).state = .done → s.recordSlot p = some i →
    s.logAt i = some r → r.state = .opened →
    i ∈ t.sales.closure ∧ ∃ q, t.logAt i = some q ∧ q.state = .closed ∧ q.reason = some .trip ∧ q.number = r.number ∧
      (r.vent = none → s.Bills r q (s.ventNow r)) ∧ ∀ v, r.vent = some v → s.Bills r q v
  /-- COOL_WAIT: the request is withdrawn. -/
  waiting    : ∀ c, (s.comp c).state = .coolWait →
    (t.comp c).state = .stopped ∧ ∀ q ∈ t.cool.queue, q.holder ≠ .compressor c
  /-- A run stops into LOCKOUT, its allocation handed back (R147). -/
  stopped    : ∀ c, (s.comp c).state.inRun = true →
    (t.comp c).state = .lockout ∧ (t.comp c).lastStop = some .trip ∧ (t.comp c).lastFault = (s.comp c).lastFault ∧
    (t.comp c).target = none ∧ t.cool.allocOf (.compressor c) = none ∧
    (t.comp c).timer = some (s.time.count + BitVec.ofNat 32 (s.compSite c).minOff)
  /-- The other compressors do not change. -/
  resting    : ∀ c, (s.comp c).state ≠ .coolWait → (s.comp c).state.inRun = false → t.comp c = s.comp c

/-! ## Reclaims (R160 to R162) -/

/-- A holder's entry `a` is gone. -/
def Cooling.Lost (c d : Cooling) (h : Holder) (a : Alloc) : Prop := c.allocOf h = some a ∧ d.allocOf h = none

/-- What a reclaim leaves of the allocator, the compressors and the positions, once its four steps are done and before
anything is served: each step comes only where the ones before it have nothing left to take (R160), a step takes the most
recent admission stamp first (R160 to R162), and nothing is taken that need not be. -/
structure State.Reclaimed (s u : State) : Prop where
  within      : u.cool.heldSum ≤ u.cool.capacity
  /-- A compressor's entry stays as it is, its mark apart. -/
  compressors : ∀ c a b, s.cool.allocOf (.compressor c) = some a → u.cool.allocOf (.compressor c) = some b →
    b.amount = a.amount ∧ b.stamp = a.stamp
  /-- A position's entry stays, or has been moved to a warmer category of a flowing fill (R161). -/
  positions   : ∀ p a b, s.cool.allocOf (.position p) = some a → u.cool.allocOf (.position p) = some b → b ≠ a →
    (s.seq p).state.flowing = true ∧ ∃ f g, a.fill = some f ∧ b.fill = some g ∧
      b = { a with amount := (s.combinationAt p f.band.val g.category).demand, fill := some g } ∧ b.amount ≤ a.amount ∧
      g = { f with category := g.category, downgrades := g.downgrades } ∧
      f.category.index < g.category.index ∧ f.downgrades < g.downgrades ∧
      (s.combinationAt p f.band.val g.category).aprr ≠ 0 ∧ s.Recategorised u p g.category
  /-- Step 1 comes first. -/
  noncritical : (∃ p a, s.cool.allocOf (.position p) = some a ∧ u.cool.allocOf (.position p) ≠ some a) ∨
      (∃ c a, s.cool.Lost u.cool (.compressor c) a ∧ a.critical = true) →
    ∀ c a b, s.cool.allocOf (.compressor c) = some a → u.cool.allocOf (.compressor c) = some b →
      a.critical = true ∨ b.critical = true
  /-- Step 2 comes before steps 3 and 4. -/
  downgrades  : (∃ p a, s.cool.Lost u.cool (.position p) a) ∨
      (∃ c a, s.cool.Lost u.cool (.compressor c) a ∧ a.critical = true ∧ s.compCritical c = true) →
    ∀ p b, u.cool.allocOf (.position p) = some b → (s.seq p).state.flowing = true → u.downgradeCategory p b = none
  /-- Step 3 comes before step 4. -/
  critical    : ∀ p a, s.cool.Lost u.cool (.position p) a → ∀ c, u.cool.allocOf (.compressor c) = none
  /-- Of two compressors with the same mark the more recent goes first. -/
  lastComp    : ∀ c d a b, s.cool.Lost u.cool (.compressor c) a → s.cool.allocOf (.compressor d) = some b →
    a.critical = b.critical → a.stamp < b.stamp → u.cool.allocOf (.compressor d) = none
  /-- Of two fills that can be downgraded the more recent is moved first. -/
  lastMoved   : ∀ p q a b, s.cool.allocOf (.position p) = some a → u.cool.allocOf (.position p) ≠ some a →
    s.cool.allocOf (.position q) = some b → a.stamp < b.stamp → (s.seq q).state.flowing = true →
    s.downgradeCategory q b ≠ none → u.cool.allocOf (.position q) ≠ some b
  /-- Of two positions the more recent goes first, and stands first in the queue (R162). -/
  lastPos     : ∀ p q a b, s.cool.Lost u.cool (.position p) a → s.cool.allocOf (.position q) = some b → a.stamp < b.stamp →
    u.cool.allocOf (.position q) = none ∧
      ∃ x y, [x, y].Sublist u.cool.queue ∧ x.holder = .position q ∧ y.holder = .position p
  /-- An entry that is gone alone was needed. -/
  needed      : ∀ h a, s.cool.Lost u.cool h a → (∀ k, k ≠ h → u.cool.allocOf k = s.cool.allocOf k) →
    u.cool.capacity < u.cool.heldSum + a.amount
  /-- The last position taken was needed. -/
  neededPos   : ∀ p a, s.cool.Lost u.cool (.position p) a →
    (∀ q b, s.cool.Lost u.cool (.position q) b → a.stamp ≤ b.stamp) → u.cool.capacity < u.cool.heldSum + a.amount
  /-- A compressor in a run stops into LOCKOUT (R149). -/
  stopped     : ∀ c a, s.cool.Lost u.cool (.compressor c) a → (s.comp c).state.inRun = true →
    (u.comp c).state = .lockout ∧ (u.comp c).lastStop = some .coolingReclaimed
  /-- A flowing fill is held for COOLING and asks again at its category and band; one in ADMIT asks again as at admission
  (R162). -/
  asks        : ∀ p a, s.cool.Lost u.cool (.position p) a →
    ((s.seq p).state.flowing = true →
      ((u.seq p).state = .hold ∨ (u.seq p).state = .switch) ∧ (u.seq p).causes.cooling = true ∧
      ∀ f, a.fill = some f → ∃ g, .position p f.cls (some g) ∈ u.cool.queue ∧ g.band = f.band ∧
        f.category.index ≤ g.category.index ∧ f.downgrades ≤ g.downgrades) ∧
    ((s.seq p).state.flowing = false →
      (u.seq p).state = (s.seq p).state ∧ ∀ f, a.fill = some f → .position p f.cls none ∈ u.cool.queue)
  /-- The chiller setpoint follows the categories and states that are left (R160, R165). -/
  setpoint    : u.SetpointStands

/-! ## Safe states -/

/-- An actuator point is owned by SAFE and commanded its safe value (R22, R23). -/
def State.SafeAt (s : State) (i : Nat) : Prop :=
  ∀ e r, s.entry i = some e → s.act i = some r → r.owner = .safe ∧ r.effective = e.safe

/-- While the trip latch is set, every actuator point is owned by SAFE and commanded its safe value (R23, R24, R33). -/
def State.TripSafe (s : State) : Prop := s.latched = true → ∀ i ∈ s.actuatorPoints, s.SafeAt i

/-- Every cell of the reaction table holds a reaction no milder than its floor (R108, R109). -/
def State.ReactionsFloored (s : State) : Prop :=
  s.reactions.length = 52 ∧
    ∀ n, (reactionFloors.getD n .note).rank ≤ (s.reactions.getD n .note).rank

/-- The ring port's buffers are within their places (R188, R192, R195). -/
def Ring.Bounded (r : Ring) : Prop :=
  r.forwarding.length ≤ Config.forwardingPlaces ∧ r.placesTaken ≤ Config.responsePlaces ∧
    r.notices.length ≤ Config.noticePlaces

/-- Ring-out is idle only while no frame waits (R189). -/
def Ring.Served (r : Ring) : Prop :=
  r.sending = none → r.commands = [] ∧ r.forwarding = [] ∧ r.responses = [] ∧ r.notices = []

/-- A slot without its bind count. -/
def Slot.unbound (t : Slot) : Slot := { t with binds := 0 }

/-- A kind without its bind counts. -/
def KindStore.unbound (k : KindStore) : KindStore := ⟨k.slotA.unbound, k.slotB.unbound, k.lastGen⟩

/-- What consequences leave of the table store: everything but bind counts. -/
structure TablesKept (a b : TableStore) : Prop where
  gas      : b.gas.unbound = a.gas.unbound
  protocol : b.protocol.unbound = a.protocol.unbound
  tariff   : b.tariff.unbound = a.tariff.unbound
  site     : b.site = a.site

/-- What consequences leave of the sales unit. -/
structure SalesKept (a b : Sales) : Prop where
  length     : b.log.length = a.log.length
  free       : ∀ i, a.log.getD i none = none → b.log.getD i none = none
  closed     : ∀ i r, a.log.getD i none = some r → r.state = .closed → b.log.getD i none = some r
  closure    : a.closure <+: b.closure
  counter    : b.counter = a.counter
  day        : b.contractDay = a.contractDay
  retention  : b.retentionLost = a.retentionLost
  contracts  : b.contracts.map Contract.id = a.contracts.map Contract.id

/-- What no consequence of a command changes outside the ring port and the blocks' own running figures: the tables, the
closed and free records of the log, the sensor records, the reaction table, the enables, the time and the waiting
commands. -/
structure State.Steady (s t : State) : Prop where
  tables    : TablesKept s.tables t.tables
  sales     : SalesKept s.sales t.sales
  sensors   : ∀ i, t.live i = s.live i
  reactions : t.reactions = s.reactions
  enable    : t.events.enable = s.events.enable
  strap     : t.ring.strap = s.ring.strap
  time      : t.time = s.time
  pending   : t.pending = s.pending

/-- The allocator's table and queue in order: one entry and one request to a holder at most, stamps in the order of the
grants, and the held sum within the effective capacity (R155, R156, R160). -/
structure Cooling.Orderly (c : Cooling) : Prop where
  holders  : (c.table.map Alloc.holder).Nodup
  requests : (c.queue.map CoolRequest.holder).Nodup
  stamps   : (c.table.map Alloc.stamp).Pairwise (· < ·)
  counted  : ∀ a ∈ c.table, a.stamp ≤ c.stamps
  within   : c.heldSum ≤ c.capacity

/-- The fixed numbers of point records, flags, log records and reaction cells (sections 1.1, 6.2, 11.7, 12.5). -/
structure State.Shaped (s : State) : Prop where
  records   : s.points.records.length = Config.pointCount
  flags     : s.events.flags.length = 46
  log       : s.sales.log.length = Config.logRecords
  reactions : s.reactions.length = 52

end Machine

end Sys2Proof
end

