-- ==== Sys2Proof/Certificates/Slice0/Obligations.lean ====
section
/-! DEFINITION. The statements for the provers: what the commands of the Rawsel HF6 do, and what every step keeps. -/

open Sys2Proof Sys2Proof.Machine

/-! ## The step and the queue of commands -/

/-- A step carries out the command at the front of the queue with the queue's rest. -/
def Obligations.StepTakesTheFront : Prop :=
  ∀ (c : Instr) (q : List Instr) (s : State), s.pending = c :: q → step s = exec c (s.setPending q)

/-- On an empty queue a due expiry is carried out, and otherwise a millisecond passes; a millisecond passes only while no
running deadline has been reached (R197; the model's choice, notes/assumptions/6.md). -/
def Obligations.IdleStepPassesNoDeadline : Prop :=
  ∀ s : State, s.pending = [] →
    (∀ c, s.dueCommand = some c → step s = exec c s) ∧
    (s.dueCommand = none →
      step s = .next { s with time := { s.time with count := s.time.count + 1 } } ∧
      (∀ i r d, i < 192 → s.live i = some r → r.deadline = some d → s.reached d = false) ∧
      (∀ i r, i < 192 → s.act i = some r →
        s.reached r.refresh = false ∧ ∀ d, r.discrepancy = some d → s.reached d = false) ∧
      (∀ p d, (s.seq p).couple = some d ∨ (s.seq p).holdLimit = some d ∨ (s.seq p).pulse = some d ∨
          (s.seq p).ventTimer = some d ∨ (s.seq p).link.bind LinkState.timer = some d ∨
          (s.sales.intake.get p).deadline = some d ∨ (s.cool.monitors.get p).settle = some d ∨
          (s.cool.monitors.get p).grace = some d → s.reached d = false) ∧
      (∀ c d, (s.comp c).state = .starting ∨ (s.comp c).state = .unloaded ∨ (s.comp c).state = .lockout →
        (s.comp c).timer = some d → s.reached d = false) ∧
      (∀ d, s.points.settle = some d → s.reached d = false) ∧
      (s.time.valid = true → s.reached (s.time.mark + 60000) = false))

/-- Every command runs to its end in every state: the answer is a next state in which no hand-over of the event is left over
(log 5: State.settle drops what is left after 4,096 hand-overs, the model's choice, notes/assumptions/5.md) and the
commands still waiting are as they were (section 0.5.6). -/
def Obligations.EveryCommandEnds : Prop :=
  ∀ (c : Instr) (s : State), ∃ t : State, exec c s = .next t ∧ t.handOvers = [] ∧ t.pending = s.pending

/-- The expiry of a timer that is not running changes nothing (the model's reading, notes/assumptions/4.md). -/
def Obligations.StoppedTimerDoesNotExpire : Prop :=
  ∀ s : State, s.quiescent →
    (∀ i : Fin 192,
      ((∀ r, s.live i.val = some r → r.deadline = none) → exec (.pointDeadlineExpiry i) s = .next s) ∧
      (s.act i.val = none → exec (.refreshDeadlineExpiry i) s = .next s) ∧
      ((∀ r, s.act i.val = some r → r.discrepancy = none) → exec (.discrepancyDeadlineExpiry i) s = .next s)) ∧
    (s.points.settle = none → exec .tripSettleExpiry s = .next s) ∧
    (∀ p : Fin 6,
      ((s.seq p).couple = none → exec (.coupleTimerExpiry p) s = .next s) ∧
      ((s.seq p).holdLimit = none → exec (.holdLimitExpiry p) s = .next s) ∧
      ((s.seq p).pulse = none ∨ (s.seq p).phase = .settling → exec (.pulseOpenEnd p) s = .next s) ∧
      ((s.seq p).pulse = none ∨ (s.seq p).phase = .opening → exec (.pulseSettleEnd p) s = .next s) ∧
      ((s.seq p).ventTimer = none → exec (.ventTimerExpiry p) s = .next s) ∧
      ((s.seq p).link.bind LinkState.timer = none → exec (.linkTimerExpiry p) s = .next s) ∧
      ((s.sales.intake.get p).deadline = none → exec (.meterDeadlineExpiry p) s = .next s) ∧
      ((s.cool.monitors.get p).settle = none → exec (.categorySettleExpiry p) s = .next s) ∧
      ((s.cool.monitors.get p).grace = none → exec (.graceTimerExpiry p) s = .next s)) ∧
    (∀ c : Fin 2,
      ((s.comp c).timer = none → exec (.startTimerExpiry c) s = .next s ∧ exec (.runTimerExpiry c) s = .next s ∧
        exec (.lockoutExpiry c) s = .next s) ∧
      ((s.comp c).state ≠ .starting → exec (.startTimerExpiry c) s = .next s) ∧
      ((s.comp c).state ≠ .unloaded → exec (.runTimerExpiry c) s = .next s) ∧
      ((s.comp c).state ≠ .lockout → exec (.lockoutExpiry c) s = .next s)) ∧
    (s.time.valid = false → exec .minuteAdvance s = .next s)

/-! ## Arrival at ring-in and ring-out -/

/-- A frame whose source is the strap address is stripped, whatever its kind, with nothing taken from it.  An unaddressed
part only forwards: every good frame joins the forwarding buffer, or is dropped where the buffer is full
(R186, R187, R188). -/
def Obligations.OwnFramesAndUnaddressedParts : Prop :=
  ∀ (c : Instr) (f : Frame) (s : State), c.frame = some f → s.quiescent →
    (s.addressed = true → f.hdr.src = s.ring.strap → exec c s = .next s) ∧
    (s.addressed = false →
      (s.ring.forwarding.length < 4 → exec c s = .next (s.forwarded f)) ∧
      (4 ≤ s.ring.forwarding.length → exec c s = .next s.dropFrame))

/-- A frame for another node is dropped whole where the forwarding buffer is full, whatever its kind; where there is
room, requests, payments, frames of other kinds, a COMMAND to all nodes and a BEACON for another node are only
forwarded.  A frame of another kind and a COMMAND addressed to the part are discarded (R187, R188).  That a
FORWARDED_FRAME with the kind of a frame the part takes is treated so too is the model's choice
(notes/assumptions/11.md). -/
def Obligations.OtherTrafficIsForwardedOrDropped : Prop :=
  ∀ (c : Instr) (f : Frame) (s : State), c.frame = some f → s.Hears f.hdr →
    (f.hdr.dst ≠ s.ring.strap → 4 ≤ s.ring.forwarding.length → exec c s = .next s.dropFrame) ∧
    (f.hdr.dst ≠ s.ring.strap → s.ring.forwarding.length < 4 →
      c.asks = some f.hdr ∨ c = .forwardedFrame f ∨
        (∃ d m ms, c = .beacon f.hdr d m ms ∧ f.hdr.dst ≠ 255) ∨ (∃ k v, c = .command f.hdr k v ∧ f.hdr.dst = 255) →
      exec c s = .next (s.forwarded f)) ∧
    (f.hdr.dst = s.ring.strap → c = .forwardedFrame f ∨ (∃ k v, c = .command f.hdr k v) → exec c s = .next s)

/-- A bad frame is dropped: the ring drop count goes up by 1, saturating, RING_DROP is set with it, and nothing else of
the part changes but a notice.  One NOTICE is placed exactly where the flag becomes set, its kind is enabled and fewer
than 16 wait, at the back of the notice queue or, on an idle ring-out, under transmission; it goes to the supervisor of
the ACTIVE SITE slot, or to 255 (R187, R188, R194, R195).  Three things are the model's: the bit of the kind in the
enable mask (notes/assumptions/10.md), that an idle ring-out begins at once (26.md), and that an unaddressed part, which
places no notice, drops and counts a frame whose length word alone is bad (47.md). -/
def Obligations.BadFrameIsDropped : Prop :=
  ∀ (ws : List Word) (s : State), badWords ws = true → s.quiescent → s.events.flags.length = 46 → s.ring.Served →
    let count := min (s.ring.drops + 1) 65535
    let told := s.flag .ringDrop .station = none ∧ s.events.enable.toNat.testBit 13 = true ∧ s.addressed = true ∧
      s.ring.notices.length < 16
    let notice : Notice :=
      { dst := (s.station.map fun k => BitVec.ofNat 8 k.supervisor).getD 255, kind := .ringDrop, scope := .station,
        detail := .drops count, repeats := 1 }
    ∃ t : State, exec (.badFrame ws) s = .next t ∧
      t.flag .ringDrop .station = some
        { detail := .drops count,
          repeats := match s.flag .ringDrop .station with
            | none => 1
            | some f => min (f.repeats + 1) 255 } ∧
      (∀ k sc, (k, sc) ∈ flagKeys → k ≠ .ringDrop → t.flag k sc = s.flag k sc) ∧
      t = { s with events := t.events, ring := t.ring } ∧ t.events.enable = s.events.enable ∧
      (¬told → t.ring = { s.ring with drops := count }) ∧
      (told →
        (s.ring.sending ≠ none → t.ring = { s.ring with drops := count, notices := s.ring.notices ++ [notice] }) ∧
        (s.ring.sending = none → t.ring = { s.ring with drops := count, sending := some (.notice notice) }))

/-- At the end of a transmission the arbiter takes the first frame of the first non-empty source: the command queue, the
forwarding buffer, the response queue, the notice queue (R189). -/
def Obligations.TransmissionOrder : Prop :=
  ∀ s : State, s.quiescent →
    ∃ t : State, exec .transmitComplete s = .next t ∧ t = { s with ring := t.ring } ∧
      match s.ring.commands, s.ring.forwarding, s.ring.responses, s.ring.notices with
      | .point f :: q, _, _, _ => t.ring = { s.ring with commands := q, sending := some (.command f) }
      | .trip f :: q, _, _, _ => t.ring = { s.ring with commands := q, sending := some (.trip f) }
      | [], f :: q, _, _ => t.ring = { s.ring with forwarding := q, sending := some (.forwarded f) }
      | [], [], f :: q, _ => t.ring = { s.ring with responses := q, sending := some (.response f) }
      | [], [], [], n :: q => t.ring = { s.ring with notices := q, sending := some (.notice n) }
      | [], [], [], [] => t.ring = { s.ring with sending := none }

/-- An answer joins the back of the response queue, or begins transmission at once where ring-out is idle, and changes
nothing else; it goes to the request's source with its tag (R189, R191, R192). -/
def Obligations.AnswerIsPlacedOnce : Prop :=
  ∀ (s : State) (h : Header) (code : Nat) (res : Result) (clamped : Bool) (k : Content),
    (∀ f, s.ring.sending = some f →
      s.answer h code res clamped k =
        { s with ring :=
          { s.ring with
            answering := false,
            responses := s.ring.responses ++ [.mresp h.src h.tag (BitVec.ofNat 16 code) res clamped k] } }) ∧
    (s.ring.sending = none → s.ring.Served →
      s.answer h code res clamped k =
        { s with ring :=
          { s.ring with
            answering := false,
            sending := some (.response (.mresp h.src h.tag (BitVec.ofNat 16 code) res clamped k)) } })

/-! ## Requests in general -/

/-- A request taken from a source that is not the supervisor of the ACTIVE SITE slot is refused NOT_SUPERVISOR and
changes nothing (R191).  The code in the answer to a request of no payload words is a free value (the model's choice,
notes/assumptions/34.md). -/
def Obligations.StrangerIsRefused : Prop :=
  ∀ (c : Instr) (h : Header) (code : Word) (s : State), c.request = some (h, code) → s.Takes h →
    s.notSupervisor h = true → exec c s = .next (s.refuse h code.toNat .notSupervisor)

/-- A request or payment that finds no place in the response queue is discarded, counted and changes nothing (R192). -/
def Obligations.FullResponseQueueDiscards : Prop :=
  ∀ (c : Instr) (h : Header) (s : State), c.asks = some h → s.Consumes h → s.ring.hasPlace = false →
    exec c s = .next { s with ring := { s.ring with discards := min (s.ring.discards + 1) 65535 } }

/-- An MREQ whose request code is not 1 to 34 or whose length is wrong is answered ARG under its own code, and a payment
that is neither AUTHORIZE nor CANCEL is answered ARG; none changes anything but the answer (R172, R191).  An MREQ of no
payload words carries no code, and its answer's code is a free value (the model's choice, notes/assumptions/34.md). -/
def Obligations.UnknownRequestIsArg : Prop :=
  ∀ (h : Header) (s : State),
    (s.Accepts h →
      (∀ code content, exec (.unknownMreq h (some code) content) s = .next (s.refuse h code.toNat .arg)) ∧
      exec (.unknownMreq h none []) s = .next (s.refuse h (Config.absentCode h.src h.tag).toNat .arg)) ∧
    (∀ request position reference, s.Takes h →
      exec (.unknownPayRequest h request position reference) s =
        .next (s.answerPay h request position reference .arg false none))

/-- A request on a position, bank, compressor or point that does not exist is refused ARG, one while no SITE slot is
ACTIVE NO_TABLE, and one on an empty point entry NOT_FOUND; none changes anything (R18, R26, R98 to R101, R136,
section 9.4). -/
def Obligations.BadIndexIsRefused : Prop :=
  ∀ (h : Header) (w v : Word) (s : State), s.Accepts h →
    (5 < w.toNat →
      ∀ c ∈ [(Instr.positionRead h w, 2), (.bankRead h w, 3), (.positionStop h w, 23), (.positionDisable h w, 24),
        (.positionEnable h w, 25), (.positionReset h w, 26), (.bankDisable h w, 30), (.bankEnable h w, 31)],
      exec c.1 s = .next (s.refuse h c.2 .arg)) ∧
    (1 < w.toNat →
      ∀ c ∈ [(Instr.compressorRead h w, 4), (.compressorReset h w, 27), (.compressorDisable h w, 28),
        (.compressorEnable h w, 29)],
      exec c.1 s = .next (s.refuse h c.2 .arg)) ∧
    (191 < w.toNat →
      exec (.pointRead h w) s = .next (s.refuse h 13 .arg) ∧ exec (.pointManual h w v) s = .next (s.refuse h 14 .arg)) ∧
    (s.site = none →
      (w.toNat ≤ 5 →
        ∀ c ∈ [(Instr.positionRead h w, 2), (.bankRead h w, 3), (.positionStop h w, 23), (.positionDisable h w, 24),
          (.positionEnable h w, 25), (.positionReset h w, 26), (.bankDisable h w, 30), (.bankEnable h w, 31)],
        exec c.1 s = .next (s.refuse h c.2 .noTable)) ∧
      (w.toNat ≤ 1 →
        ∀ c ∈ [(Instr.compressorRead h w, 4), (.compressorReset h w, 27), (.compressorDisable h w, 28),
          (.compressorEnable h w, 29)],
        exec c.1 s = .next (s.refuse h c.2 .noTable)) ∧
      (w.toNat ≤ 191 →
        exec (.pointRead h w) s = .next (s.refuse h 13 .noTable) ∧
        exec (.pointManual h w v) s = .next (s.refuse h 14 .noTable))) ∧
    (s.site.isSome = true → w.toNat ≤ 191 → s.entry w.toNat = none →
      exec (.pointRead h w) s = .next (s.refuse h 13 .notFound) ∧
      exec (.pointManual h w v) s = .next (s.refuse h 14 .notFound))

/-! ## Reads -/

/-- TABLE_QUERY is answered OK, or ARG for a kind that is not one of the four; it changes no state, and the response
carries the last issued generation and each slot's role, content status, bitmap, generation, bind count and reference
densities (R57). -/
def Obligations.TableQueryReportsBothSlots : Prop :=
  ∀ (h : Header) (w : Word) (s : State), s.Accepts h →
    (3 < w.toNat → exec (.tableQuery h w) s = .next (s.refuse h 6 .arg)) ∧
    (∀ k, kindOfWord w = some k →
      ∃ a b : SlotReport,
        exec (.tableQuery h w) s = .next (s.answer h 6 .ok false (.table (s.tables.kind k).lastGen a b)) ∧
        ∀ id r, (id, r) ∈ [(SlotId.a, a), (.b, b)] →
          let t := (s.tables.kind k).slot id
          r.role = t.role ∧ r.bitmap = t.segments.map Option.isSome ∧ r.generation = t.generation ∧ r.binds = t.binds ∧
            r.refs = t.refs ∧ (r.status = .full ↔ ∀ m ∈ r.bitmap, m = true) ∧
            (r.bitmap ≠ [] → (r.status = .empty ↔ ∀ m ∈ r.bitmap, m = false)))

/-- STATUS_READ, POSITION_READ, BANK_READ, COMPRESSOR_READ, COOLING_READ, POINT_READ, REACTION_READ, CONTRACT_READ,
LOG_PEEK and LOG_READ are answered with all they ask for and change no state; CONTRACT_READ, LOG_PEEK and LOG_READ are
refused NOT_FOUND where there is nothing to read, and CONTRACT_READ and REACTION_READ ARG for an id or code outside its
values (R18, R31, R101, R109, R137, R151, R166, R181, R182, R193).  The two scans of STATUS_READ are those of R17 by
R16.  The ramp time reported outside RAMP is the model's choice (notes/assumptions/36.md). -/
def Obligations.ReadsChangeNothing : Prop :=
  ∀ (h : Header) (w : Word) (s : State), s.Accepts h →
    let left := fun (d : Option Count) => d.elim 0 fun x => if s.reached x then 0 else (x - s.time.count).toNat
    (s.site.isSome = true →
      (∀ p : Pos, w.toNat = p.val →
        let q := s.seq p
        let paused := q.state = .switch ∨ q.state = .hold
        ∃ r : PositionReport, exec (.positionRead h w) s = .next (s.answer h 2 .ok false (.position r)) ∧
          r.state = q.state ∧ r.cls = some (s.cls p) ∧ r.sale = q.sale ∧ r.endReason = q.endReason ∧
          r.endCond = q.endCond ∧ r.category = q.category ∧ r.band = q.band ∧
          r.aprr = q.category.map (fun _ => (s.combination p).aprr) ∧
          (paused → r.causes = some q.causes ∧ r.resume = q.resume) ∧ (¬paused → r.causes = none ∧ r.resume = none) ∧
          r.rampBase = q.rampBase ∧ r.rampTime = q.rampBase.map (fun _ => (s.time.count - q.rampMark).toNat) ∧
          r.target = q.target ∧ r.opening = q.rampBase.map (fun _ => q.opening) ∧ r.window = q.window ∧
          r.outCount = q.window.countP (fun o => o == .outOfBand) ∧ r.settleP = q.settleP ∧ r.initialP = q.initialP ∧
          r.coupleLeft = left q.couple ∧ r.holdLeft = left q.holdLimit ∧ r.pulseLeft = left q.pulse ∧
          r.ventLeft = left q.ventTimer ∧ r.link = q.link ∧ r.linkLeft = left (q.link.bind LinkState.timer) ∧
          (∀ x, s.saleOf p = some x → r.gross = if x.state = .opened then some x.gross else none) ∧
          (s.saleOf p = none → r.gross = none) ∧ r.draw = s.draw p ∧ r.active = q.active ∧ r.holdSet = q.holdSet ∧
          r.raised = q.raised) ∧
      (∀ b : Bank, w.toNat = b.val →
        ∃ r, exec (.bankRead h w) s = .next (s.answer h 3 .ok false (.bank r)) ∧ r.live = s.bank b ∧
          r.site = s.bankSite b ∧ ∀ p, r.routed.get p = s.routed p b) ∧
      (∀ c : Comp, w.toNat = c.val →
        let q := s.comp c
        let runs := q.state = .running ∨ q.state = .switching ∨ q.state = .unloaded
        let asked := fun m => ∃ n, s.cool.queue.find? (fun x => x.holder == .compressor c) = some (.compressor c n m)
        ∃ r : CompReport, exec (.compressorRead h w) s = .next (s.answer h 4 .ok false (.compressor r)) ∧
          r.site = s.compSite c ∧ r.state = q.state ∧ r.target = q.target ∧ r.lastStop = q.lastStop ∧
          r.lastFault = q.lastFault ∧ r.queue = s.sched.queue ∧ r.timerLeft = left q.timer ∧
          (runs → r.runTime = some (s.time.count - q.runMark).toNat) ∧ (¬runs → r.runTime = none) ∧
          (∀ a, s.cool.allocOf (.compressor c) = some a → r.cooling = .allocation a.critical) ∧
          (s.cool.allocOf (.compressor c) = none →
            (∀ m, asked m → r.cooling = .request m) ∧ ((∀ m, ¬asked m) → r.cooling = .none))) ∧
      (∀ e r, w.toNat < 192 → s.entry w.toNat = some e → s.live w.toNat = some r →
        let paired := e.fn = .outletPA ∨ e.fn = .outletPB
        ∃ k : SensorReport, exec (.pointRead h w) s = .next (s.answer h 13 .ok false (.sensor k)) ∧
          k.function = e.fn.code ∧ k.scope = e.scope ∧ k.value = ⟨r.value, r.quality, r.clamped⟩ ∧
          k.freshness = r.freshness ∧ k.left = left r.deadline ∧ k.watch = r.watch ∧
          (∀ p, e.scope = .position p → paired → k.pair = some (s.points.pairs.get p)) ∧ (¬paired → k.pair = none)) ∧
      (∀ e r, w.toNat < 192 → s.entry w.toNat = some e → s.act w.toNat = some r →
        ∃ k : ActReport, exec (.pointRead h w) s = .next (s.answer h 13 .ok false (.actuator k)) ∧
          k.function = e.fn.code ∧ k.scope = e.scope ∧
          k.bank = (if e.fn = .bankValve ∨ e.fn = .dischargeValve then some e.bank else none) ∧ k.owner = r.owner ∧
          k.commanded = r.effective ∧ k.auto = r.auto ∧ k.manual = r.manual ∧ k.safe = e.safe ∧
          (e.feedback = none → k.feedback = none) ∧
          (∀ i f, e.feedback = some i → s.live i = some f →
            k.feedback = some (⟨f.value, f.quality, f.clamped⟩, f.freshness)) ∧
          k.matching = r.matching ∧ k.discLeft = left r.discrepancy ∧ k.refreshLeft = left (some r.refresh))) ∧
    (∃ r : StatusReport, exec (.statusRead h) s = .next (s.answer h 1 .ok false (.status r)) ∧
      r.strap = s.ring.strap ∧ r.trip = s.points.trip ∧ r.cause = s.points.cause ∧ r.timeValid = s.time.valid ∧
      r.day = s.time.day ∧ r.minute = s.time.minute ∧ r.sinceBeacon = s.time.sinceBeacon ∧
      r.retentionLost = s.sales.retentionLost ∧ r.drops = s.ring.drops ∧ r.discards = s.ring.discards ∧
      r.notices = s.ring.notices.length ∧ (∀ p, r.positions.get p = (s.seq p).state) ∧
      (∀ c, r.compressors.get c = (s.comp c).state) ∧ r.band = s.cool.band ∧ r.capacity = s.cool.capacity ∧
      r.heldSum = (s.cool.table.map Alloc.amount).sum ∧ r.freeRecords = s.sales.log.countP Option.isNone ∧
      r.counter = s.sales.counter ∧
      r.placesTaken = s.ring.responses.length + (if s.ring.deferred.isSome then 1 else 0) ∧
      (∀ x ∈ [(r.gasGen, TableKind.gas), (r.protocolGen, .protocol), (r.tariffGen, .tariff), (r.siteGen, .site)],
        x.1 = (s.tables.kind x.2).active.bind Slot.generation) ∧
      s.Scans s.outletT r.warmest ∧ s.Scans s.combined r.highest ∧
      ∀ k : EventKind, r.events[k.code - 1]? =
        some (k.scopes.countP fun sc => (s.flag k sc).isSome, s.events.enable.toNat.testBit (k.code - 1))) ∧
    (∃ r : CoolReport, exec (.coolingRead h) s = .next (s.answer h 5 .ok false (.cooling r)) ∧ r.band = s.cool.band ∧
      r.capacity = s.cool.capacity ∧ r.heldSum = (s.cool.table.map Alloc.amount).sum ∧
      r.free = r.capacity - r.heldSum ∧ r.table = s.cool.table ∧ r.queue = s.cool.queue ∧
      (∀ x ∈ [(r.ambient, Fn.ambient), (r.chillerRun, .chillerRun), (r.supply, .chillerSupplyT)],
        x.1 = (s.sensor x.2 .station).map LiveRecord.toValue) ∧
      (∀ k, s.station = some k →
        ∃ b, r.supplyWithin = some b ∧
          (b = true ↔ ∃ y, s.sensor .chillerSupplyT .station = some y ∧ y.isValid = true ∧ y.value ≤ k.supplyLimit)) ∧
      (s.station = none → r.supplyWithin = none) ∧
      (∀ p, r.monitors.get p =
        ⟨(s.cool.monitors.get p).last, left (s.cool.monitors.get p).settle, left (s.cool.monitors.get p).grace,
          (s.cool.monitors.get p).level⟩) ∧
      (∀ i y, s.findPoint .chillerSetpoint .station = some i → s.act i = some y → r.setpoint = some y.auto) ∧
      (s.findPoint .chillerSetpoint .station = none → r.setpoint = none) ∧ r.fromScan = s.cool.fromScan) ∧
    (∀ c, conditionOfCode w.toNat = some c →
      ∃ l, exec (.reactionRead h w) s = .next (s.answer h 16 .ok false (.reactions l)) ∧ l.length = 4 ∧
        ∀ k : StateClass, (l[k.code]?).map ReactionCell.present = some (s.reactionOf c k)) ∧
    (conditionOfCode w.toNat = none → exec (.reactionRead h w) s = .next (s.refuse h 16 .arg)) ∧
    (w = 0 → exec (.contractRead h w) s = .next (s.refuse h 11 .arg)) ∧
    (w ≠ 0 →
      (∀ c, s.contract w.toNat = some c →
        exec (.contractRead h w) s = .next (s.answer h 11 .ok false (.contract c))) ∧
      (s.contract w.toNat = none → exec (.contractRead h w) s = .next (s.refuse h 11 .notFound))) ∧
    (s.sales.closure = [] → exec (.logPeek h) s = .next (s.refuse h 17 .notFound)) ∧
    (∀ i l r, s.sales.closure = i :: l → s.logAt i = some r →
      exec (.logPeek h) s = .next (s.answer h 17 .ok false (.record r))) ∧
    ∀ n : BitVec 32,
      (∀ i r, s.slotOfNumber n.toNat = some i → s.logAt i = some r →
        exec (.logRead h n) s = .next (s.answer h 18 .ok false (.record r))) ∧
      (s.slotOfNumber n.toNat = none → exec (.logRead h n) s = .next (s.refuse h 18 .notFound))

/-! ## Tables -/

/-- TABLE_WRITE, TABLE_CLEAR and TABLE_ACTIVATE are refused ARG for a kind or slot outside the layout; TABLE_WRITE also for a
segment or length outside it, and TABLE_WRITE and TABLE_CLEAR then IN_USE for a slot that is ACTIVE or bound; a refusal
changes nothing (R55, R56, R58). -/
def Obligations.TableChangeIsRefused : Prop :=
  ∀ (h : Header) (w v : Word) (s : State), s.Accepts h →
    (3 < w.toNat ∨ 1 < v.toNat →
      exec (.tableClear h w v) s = .next (s.refuse h 7 .arg) ∧
      exec (.tableActivate h w v) s = .next (s.refuse h 9 .arg) ∧
      ∀ n l, exec (.tableWrite h w v n l) s = .next (s.refuse h 8 .arg)) ∧
    ∀ k id, kindOfWord w = some k → slotOfWord v = some id →
      (∀ n l, k.segments ≤ n.toNat ∨ l.length ≠ k.segmentLength n.toNat →
        exec (.tableWrite h w v n l) s = .next (s.refuse h 8 .arg)) ∧
      (((s.tables.kind k).slot id).role = .active ∨ ((s.tables.kind k).slot id).binds ≠ 0 →
        exec (.tableClear h w v) s = .next (s.refuse h 7 .inUse) ∧
        ∀ n l, n.toNat < k.segments → l.length = k.segmentLength n.toNat →
          exec (.tableWrite h w v n l) s = .next (s.refuse h 8 .inUse))

/-- An accepted TABLE_WRITE replaces the whole segment and sets its mark; an accepted TABLE_CLEAR clears every mark and
value of the slot.  Both remove the slot's generation and reference densities, and nothing else of the part changes but
the answer (R55, R56). -/
def Obligations.TableChangeReachesTheSlotAlone : Prop :=
  ∀ (h : Header) (w v n : Word) (l : List Word) (k : TableKind) (id : SlotId) (s : State), s.Accepts h →
    kindOfWord w = some k → slotOfWord v = some id →
    ((s.tables.kind k).slot id).role = .standby → ((s.tables.kind k).slot id).binds = 0 →
    let kept := fun (t : State) (code : Nat) =>
      ((t.tables.kind k).slot id).generation = none ∧ ((t.tables.kind k).slot id).refs = none ∧
      ((t.tables.kind k).slot id).role = .standby ∧ ((t.tables.kind k).slot id).binds = 0 ∧
      (t.tables.kind k).slot id.other = (s.tables.kind k).slot id.other ∧
      (t.tables.kind k).lastGen = (s.tables.kind k).lastGen ∧ (∀ j, j ≠ k → t.tables.kind j = s.tables.kind j) ∧
      t = { s.answer h code .ok false .none with tables := t.tables }
    (n.toNat < k.segments → l.length = k.segmentLength n.toNat →
      ((s.tables.kind k).slot id).segments.length = k.segments →
      ∃ t : State, exec (.tableWrite h w v n l) s = .next t ∧ kept t 8 ∧
        ((t.tables.kind k).slot id).segments[n.toNat]? = some (some l) ∧
        ∀ m, m ≠ n.toNat → ((t.tables.kind k).slot id).segments[m]? = ((s.tables.kind k).slot id).segments[m]?) ∧
    ∃ t : State, exec (.tableClear h w v) s = .next t ∧ kept t 7 ∧ ((t.tables.kind k).slot id).status = .empty ∧
      ∀ seg off, ((t.tables.kind k).slot id).word seg off = 0

/-- TABLE_ACTIVATE of the ACTIVE slot is answered OK with its generation; of a slot that is not FULL INCOMPLETE; of
SITE while the station is not quiet NOT_QUIET; of content that fails validation INVALID_TABLE with the entry and the
check.  None of these changes anything (R58).  GAS content passes exactly where every density above row 0 is above 0, does
not fall with pressure and does not rise with temperature, and the first entry that fails is the one reported (R61, R62);
TARIFF content by its start minutes, prices and rounding mode (R63); PROTOCOL content by the ranges and the order of its
pressures, band edges and category limits (R69 to R72).  SITE content that passes has one point to a channel, none at the
strap address, the forms and the feedback points of the actuators, the required points once each, and banks, sequences and
supervisor within their rules (R64). -/
def Obligations.ActivationIsRefusedInOrder : Prop :=
  (∀ (h : Header) (w v : Word) (k : TableKind) (id : SlotId) (s : State), s.Accepts h →
    kindOfWord w = some k → slotOfWord v = some id →
    let t := (s.tables.kind k).slot id
    (∀ g, t.role = .active → t.generation = some g →
      exec (.tableActivate h w v) s = .next (s.answer h 9 .ok false (.activated g))) ∧
    (t.role = .standby →
      (t.status ≠ .full → exec (.tableActivate h w v) s = .next (s.refuse h 9 .incomplete)) ∧
      (t.status = .full →
        (k = .site → s.quiet = false → exec (.tableActivate h w v) s = .next (s.refuse h 9 .notQuiet)) ∧
        (k = .site → s.quiet = true ∨ k ≠ .site →
          ∀ n c, t.validate k s.ring.strap.toNat = some (n, c) →
            exec (.tableActivate h w v) s = .next (s.answer h 9 .invalidTable false (.failedEntry n c)))))) ∧
  ∀ (t : Slot) (strap : Nat),
    let passes := fun k => t.validate k strap = none
    let dense := fun i j =>
      i ≠ 0 → t.grid i j ≠ 0 ∧ t.grid (i - 1) j ≤ t.grid i j ∧ (j ≠ 0 → t.grid i j ≤ t.grid i (j - 1))
    (passes .gas ↔ ∀ i j, i ≤ 40 → j ≤ 16 → dense i j) ∧
    (∀ n c, t.validate .gas strap = some (n, c) →
      n < 697 ∧ ¬dense (n / 17) (n % 17) ∧ (∀ m, m < n → dense (m / 17) (m % 17)) ∧
      (c = .gridZero → t.grid (n / 17) (n % 17) = 0) ∧
      (c = .gridPressure → t.grid (n / 17) (n % 17) < t.grid (n / 17 - 1) (n % 17)) ∧
      (c = .gridTemperature → t.grid (n / 17) (n % 17 - 1) < t.grid (n / 17) (n % 17))) ∧
    (passes .tariff ↔
      t.bandStart 0 = 0 ∧ (∀ b, 1 ≤ b → b ≤ 7 → t.bandStart (b - 1) < t.bandStart b ∧ t.bandStart b < 1440) ∧
      (∀ b k tier, b ≤ 7 → tier ≤ 3 → t.price b k tier ≤ 999999) ∧ t.rounding ≤ 1) ∧
    (passes .protocol ↔
      (∀ k : DispClass,
        let e := t.header k
        (e.nominal = k.nominal ∧ e.minInitial < e.nominal ∧ e.nominal < e.cap ∧ e.cap < e.maxLimit ∧
          e.maxLimit ≤ 10000) ∧
        (1 ≤ e.socEnd ∧ e.socEnd ≤ 1500 ∧ -600 ≤ e.tankTempMax ∧ e.tankTempMax ≤ 1000) ∧
        (1 ≤ e.pulseOpening ∧ e.pulseOpening ≤ e.openLimit ∧ 200 ≤ e.pulseOpen ∧ e.pulseOpen ≤ 5000 ∧
          1000 ≤ e.pulseSettle ∧ e.pulseSettle ≤ 10000 ∧ e.leakLimit ≤ 1000) ∧
        (e.rampDelay ≤ 30000 ∧ 1 ≤ e.conformanceN ∧ e.conformanceN ≤ 8 ∧ 1 ≤ e.gain ∧ e.gain ≤ 255 ∧ 1 ≤ e.maxStep ∧
          e.maxStep ≤ 200 ∧ 1 ≤ e.openLimit ∧ e.openLimit ≤ 1000 ∧ e.switchDiff ≤ 2000) ∧
        (e.anticipation ≤ 2000 ∧ e.minSale ≤ e.maxSale ∧ 1 ≤ e.maxSale ∧
          e.maxSale ≤ (if k = .h70 then 12000 else 80000) ∧ 1 ≤ e.meterDelta ∧ e.meterDelta ≤ 65535 ∧ e.creep ≤ 1000 ∧
          e.sensorTol ≤ 1000) ∧
        (200 ≤ e.linkTimeout ∧ e.linkTimeout ≤ 5000 ∧ e.linkTol ≤ 2000 ∧ 5000 ≤ e.holdLimit ∧ e.holdLimit ≤ 300000 ∧
          10000 ≤ e.couple ∧ e.couple ≤ 600000) ∧
        e.ventDone ≤ 1000 ∧ 1000 ≤ e.ventTimeout ∧ e.ventTimeout ≤ 60000 ∧ e.catSettle ≤ 60000 ∧ e.catGrace ≤ 60000) ∧
      (∀ n, n ≤ 4 → -600 ≤ t.bandEdge n ∧ t.bandEdge n ≤ 1000 ∧ (n ≠ 0 → t.bandEdge (n - 1) < t.bandEdge n)) ∧
      (-600 ≤ t.categoryLimit .t40 ∧ t.categoryLimit .t40 < t.categoryLimit .t30 ∧
        t.categoryLimit .t30 < t.categoryLimit .t20 ∧ t.categoryLimit .t20 ≤ 1000 ∧ t.margin ≤ 200) ∧
      ∀ k b c, b ≤ 5 →
        let m := t.combination k b c
        m.aprr ≤ 2000 ∧ m.tolAbove ≤ 1000 ∧ m.tolBelow ≤ 1000 ∧ (t.header k).minInitial < m.endPress ∧
          m.endPress ≤ (t.header k).cap) ∧
    (passes .site →
      (∀ i e, i < 192 → t.point i = some e →
        1 ≤ e.node ∧ e.node ≤ 254 ∧ e.node ≠ strap ∧ e.channel ≤ 3 ∧ e.fn.scopeOk e.scope = true ∧
        (∀ j d, j < i → t.point j = some d → ¬(d.node = e.node ∧ d.channel = e.channel)) ∧
        (e.fn = .nozzle → e.stale = 1) ∧ (e.fn = .fillValve → e.prop = true ∧ e.safe = 0) ∧
        (e.fn = .compRun → e.prop = false) ∧
        (∀ j d, j < i → t.point j = some d → d.fn = e.fn → d.scope = e.scope → e.fn = .bankValve ∨ e.fn = .dischargeValve →
          d.bank ≠ e.bank) ∧
        (∀ n, e.feedback = some n → n < 192 ∧ ∃ f, t.point n = some f ∧ f.fn = .valveFb ∧ f.scope = e.scope) ∧
        (e.fn = .valveFb →
          (∃ n d, n < 192 ∧ t.point n = some d ∧ d.feedback = some i) ∧
          ∀ n d m f, n < 192 → m < 192 → t.point n = some d → t.point m = some f → d.feedback = some i →
            f.feedback = some i → n = m)) ∧
      (let once := fun (f : Fn) (sc : EventScope) =>
        ∃ i e, i < 192 ∧ t.point i = some e ∧ e.fn = f ∧ e.scope = sc ∧
          ∀ j d, j < 192 → t.point j = some d → d.fn = f → d.scope = sc → j = i
      (∀ p, ∀ f ∈ [Fn.outletPA, .outletPB, .outletT, .nozzle, .fillValve, .ventValve], once f (.position p)) ∧
      (∀ c, ∀ f ∈ [Fn.compRun, .runFb, .dischargeT], once f (.compressor c)) ∧
      ∀ f ∈ [Fn.ambient, .chillerRun, .chillerSupplyT, .chillerSetpoint], once f .station) ∧
      (∀ b, b ≤ 5 →
        let k := t.bankSite b
        1 ≤ k.drawPorts ∧ k.drawPorts ≤ 2 ∧ k.critical < k.restart ∧ k.restart < k.ceiling ∧ k.ceiling ≤ 10000) ∧
      (∀ k, (t.sequence k).Nodup ∧ 1 ≤ (t.sequence k).length ∧ (t.sequence k).length ≤ 6) ∧
      t.station.supervisor ≠ strap ∧ 1 ≤ t.station.supervisor ∧ t.station.supervisor ≤ 254)

/-- An accepted TABLE_ACTIVATE issues the next generation to the slot and makes it ACTIVE; the former ACTIVE slot
becomes STANDBY with its content and generation; reference densities are computed for GAS; TABLE_ACTIVATED is set
(R44, R59).  A SITE activation starts every sensor record as never sampled and examines the trip line and the detectors
(R4, R34, R60); every bank is UNKNOWN but for a DISABLED one, with an INVALID pressure, and every draw record empty (R138);
the replenishment queue is emptied and the compressors stay (R152); outlet monitors and meter intakes start afresh (R167,
R171); every position keeps its state, with no last pressures and SENSOR_STALE its one active level (R73, R115); and the
allocator, whose table and queue are empty, keeps its stamp counter and falls to the hottest band and a capacity of 0. -/
def Obligations.ActivationTakesTheSlot : Prop :=
  ∀ (h : Header) (w v : Word) (k : TableKind) (id : SlotId) (s : State), s.Accepts h →
    kindOfWord w = some k → slotOfWord v = some id → s.events.flags.length = 46 →
    ((s.tables.kind k).slot id).role = .standby → ((s.tables.kind k).slot id).status = .full →
    (k = .site → s.quiet = true) → ((s.tables.kind k).slot id).validate k s.ring.strap.toNat = none →
    ∃ t : State, exec (.tableActivate h w v) s = .next t ∧
      (t.tables.kind k).lastGen = (s.tables.kind k).lastGen + 1 ∧
      ((t.tables.kind k).slot id).role = .active ∧
      ((t.tables.kind k).slot id).generation = some ((s.tables.kind k).lastGen + 1) ∧
      ((t.tables.kind k).slot id).segments = ((s.tables.kind k).slot id).segments ∧
      (k = .gas → ((t.tables.kind k).slot id).refs = some ((s.tables.kind k).slot id).references) ∧
      ((t.tables.kind k).slot id.other).role = .standby ∧
      ((t.tables.kind k).slot id.other).segments = ((s.tables.kind k).slot id.other).segments ∧
      ((t.tables.kind k).slot id.other).generation = ((s.tables.kind k).slot id.other).generation ∧
      (∀ j, j ≠ k → (t.tables.kind j).unbound = (s.tables.kind j).unbound) ∧
      (t.flag .tableActivated .station).isSome = true ∧ t.time = s.time ∧ t.reactions = s.reactions ∧
      (k = .site →
        (∀ i e, i < 192 → ((s.tables.kind k).slot id).point i = some e → e.fn.isSensor = true →
          t.live i = some ⟨e.substitute, .invalid, false, .never, none, e.watch.map fun _ => .armed⟩) ∧
        (∀ p, t.points.pairs.get p = ⟨.neither, ⟨10000, .invalid, false⟩⟩) ∧
        (∀ b, t.bank b =
          ⟨if (s.bank b).state = .disabled then .disabled else .unknown, ⟨0, .invalid, false⟩, Six.all false, [], none⟩ ∧
          t.copy b = ⟨⟨0, .invalid, false⟩, if (s.copy b).state = .disabled then .disabled else .unknown⟩) ∧
        (∀ p, t.draw p = ⟨none, none, none⟩ ∧ t.cool.monitors.get p = ⟨none, none, .none, false⟩ ∧
          t.sales.intake.get p = ⟨none, .never, none, true, .gasClosed⟩ ∧
          t.seq p =
            { s.seq p with lastP := none, lastValidP := none, overTest := .none, active := ⟨false, true, false, false⟩ }) ∧
        t.sched.queue = [] ∧ (∀ c, t.comp c = s.comp c) ∧
        (s.points.trip ≠ .clear → t.points.trip = s.points.trip ∧ t.points.cause = s.points.cause) ∧
        (s.points.trip = .clear →
          (s.points.linePulled = true → t.points.trip = .latched ∧ t.points.cause = some .line) ∧
          (s.points.linePulled = false →
            (t.activeDetectors = [] → t.points.trip = .clear) ∧
            ∀ i l, t.activeDetectors = i :: l → t.points.trip = .latched ∧ t.points.cause = some (.detector i))) ∧
        (s.cool.table = [] → s.cool.queue = [] →
          (∀ g, s.protocol = some g → ∀ x ∈ g.bandEdges, x ≤ 1000) →
          t.cool = ⟨5, 0, [], s.cool.stamps, [], t.cool.monitors, false⟩))

/-! ## Contracts and the log -/

/-- CONTRACT_WRITE creates a contract with its remaining allowance equal to the quota, or replaces state, tier, mask and
quota of a held one; the quota is clamped to 2,000,000 g and the answer marked.  It is refused ARG for a field outside
its values and IN_USE for a new id while 64 are held (R182).  The state codes ACTIVE 0 and SUSPENDED 1 and the mask's bits,
H70 bit 0 and H35 bit 1, are the model's choice (notes/assumptions/10.md). -/
def Obligations.ContractWriteStoresTheContract : Prop :=
  ∀ (h : Header) (id st tier mask : Word) (quota : BitVec 32) (s : State), s.Accepts h →
    (id = 0 ∨ 1 < st.toNat ∨ tier = 0 ∨ 3 < tier.toNat ∨ mask = 0 ∨ 3 < mask.toNat →
      exec (.contractWrite h id st tier mask quota) s = .next (s.refuse h 10 .arg)) ∧
    (id ≠ 0 → st.toNat ≤ 1 → tier ≠ 0 → tier.toNat ≤ 3 → mask ≠ 0 → mask.toNat ≤ 3 →
      (s.contract id.toNat = none → 64 ≤ s.sales.contracts.length →
        exec (.contractWrite h id st tier mask quota) s = .next (s.refuse h 10 .inUse)) ∧
      ((s.contract id.toNat).isSome = true ∨ s.sales.contracts.length < 64 →
        ∃ t c, exec (.contractWrite h id st tier mask quota) s = .next t ∧ t.contract id.toNat = some c ∧
          c.id = id.toNat ∧ c.active = decide (st.toNat = 0) ∧ c.tier = tier.toNat ∧
          c.permitH70 = mask.toNat.testBit 0 ∧ c.permitH35 = mask.toNat.testBit 1 ∧
          c.quota = min quota.toNat 2000000 ∧
          (s.contract id.toNat = none → c.remaining = c.quota ∧ c.reserved = 0 ∧ c.salesToday = 0) ∧
          (∀ d, s.contract id.toNat = some d →
            c.remaining = d.remaining ∧ c.reserved = d.reserved ∧ c.salesToday = d.salesToday) ∧
          (∀ j, j ≠ id.toNat → t.contract j = s.contract j) ∧
          t = { s.answer h 10 .ok (decide (2000000 < quota.toNat)) .none with
            sales := { s.sales with contracts := t.sales.contracts } }))

/-- CONTRACT_DELETE removes the contract; it is refused ARG for id 0, NOT_FOUND for an id not held and IN_USE while the
reserved mass is above 0 (R182). -/
def Obligations.ContractDeleteRemovesTheContract : Prop :=
  ∀ (h : Header) (id : Word) (s : State), s.Accepts h →
    (id = 0 → exec (.contractDelete h id) s = .next (s.refuse h 12 .arg)) ∧
    (id ≠ 0 → s.contract id.toNat = none → exec (.contractDelete h id) s = .next (s.refuse h 12 .notFound)) ∧
    (id ≠ 0 → ∀ c, s.contract id.toNat = some c →
      (0 < c.reserved → exec (.contractDelete h id) s = .next (s.refuse h 12 .inUse)) ∧
      (c.reserved = 0 →
        ∃ t : State, exec (.contractDelete h id) s = .next t ∧ t.contract id.toNat = none ∧
          (∀ j, j ≠ id.toNat → t.contract j = s.contract j) ∧
          t = { s.answer h 12 .ok false .none with sales := { s.sales with contracts := t.sales.contracts } }))

/-- LOG_RELEASE makes a CLOSED record FREE and takes it out of the closure list, the others keeping their order; a
RESERVED or OPEN record is refused BUSY, and a sale number of no record NOT_FOUND (R181). -/
def Obligations.LogReleaseFreesTheRecord : Prop :=
  ∀ (h : Header) (n : BitVec 32) (s : State), s.Accepts h →
    ((∀ i r, s.logAt i = some r → r.number ≠ n.toNat) →
      exec (.logRelease h n) s = .next (s.refuse h 19 .notFound)) ∧
    ∀ i r, s.logAt i = some r → r.number = n.toNat →
      (∀ j q, j < i → s.logAt j = some q → q.number ≠ n.toNat) →
      (r.state ≠ .closed → exec (.logRelease h n) s = .next (s.refuse h 19 .busy)) ∧
      (r.state = .closed →
        ∃ t : State, exec (.logRelease h n) s = .next t ∧ t.logAt i = none ∧ (∀ j, j ≠ i → t.logAt j = s.logAt j) ∧
          t.sales.closure = s.sales.closure.filter (fun j => j != i) ∧
          t = { s.answer h 19 .ok false .none with
            sales := { s.sales with log := t.sales.log, closure := t.sales.closure } })

/-! ## Points, reactions, events -/

/-- POINT_MANUAL stores the manual value clamped to the point's value set, marked CLAMPED in the answer where it was
outside; it reaches the actuator at once where the point is MANUAL, and only then.  A sensor point is refused ARG
(R26). -/
def Obligations.PointManualStoresTheValue : Prop :=
  ∀ (h : Header) (w v : Word) (e : PointEntry) (s : State), s.Accepts h → w.toNat < 192 →
    s.entry w.toNat = some e →
    (e.fn.isSensor = true → exec (.pointManual h w v) s = .next (s.refuse h 14 .arg)) ∧
    (e.fn.isSensor = false → ∀ r, s.act w.toNat = some r →
      let x := e.fn.valueOfWord v
      let c := e.clampAct x
      (r.owner ≠ .manual →
        exec (.pointManual h w v) s =
          .next ((s.setRecord w.toNat (.actuator { r with manual := c })).answer h 14 .ok (decide (c ≠ x)) .none)) ∧
      (r.owner = .manual →
        ∃ (t : State) (q : ActRecord),
          exec (.pointManual h w v) s = .next (t.answer h 14 .ok (decide (c ≠ x)) .none).settle ∧
          t.act w.toNat = some q ∧ q.manual = c ∧ q.effective = c ∧ q.owner = .manual ∧ q.auto = r.auto ∧
          (r.effective ≠ c →
            .point ⟨w.toNat, BitVec.ofNat 8 e.node, e.channel, c⟩ ∈ t.ring.commands ∨
              t.ring.sending = some (.command ⟨w.toNat, BitVec.ofNat 8 e.node, e.channel, c⟩)) ∧
          (∀ j, j ≠ w.toNat → t.record j = s.record j) ∧ t.tables = s.tables ∧ t.seqs = s.seqs ∧ t.banks = s.banks ∧
          t.draws = s.draws ∧ t.sched = s.sched ∧ t.cool = s.cool ∧ t.events = s.events ∧ t.time = s.time))

/-- REACTION_WRITE stores the reaction, or the cell's floor with the answer marked CLAMPED where the reaction is below
it; every other cell and everything else stay, a reaction already applied included; the cell is retained, it is selected
for raises from then on, and a HOLD of an event condition or outside FLOWING acts as NOTE.  A code outside its values is
refused ARG.  REACTION_READ is refused ARG for a code outside 1 to 13 and otherwise answers the present reaction, the
default and the floor of the four classes, and changes nothing (R109). -/
def Obligations.ReactionWriteKeepsTheFloor : Prop :=
  ∀ (h : Header) (w k r : Word) (s : State), s.Accepts h →
    (w.toNat = 0 ∨ 13 < w.toNat ∨ 3 < k.toNat ∨ 4 < r.toNat →
      exec (.reactionWrite h w k r) s = .next (s.refuse h 15 .arg)) ∧
    (w.toNat = 0 ∨ 13 < w.toNat → exec (.reactionRead h w) s = .next (s.refuse h 16 .arg)) ∧
    (∀ c, conditionOfCode w.toNat = some c →
      ∃ l, exec (.reactionRead h w) s = .next (s.answer h 16 .ok false (.reactions l)) ∧ l.length = 4 ∧
        ∀ cls : StateClass, l[cls.code]? = some
          { present := s.reactionOf c cls,
            fallback := defaultReactions.getD (cellIndex c cls) .note,
            floor := reactionFloors.getD (cellIndex c cls) .note }) ∧
    (s.reactions.length = 52 → ∀ c cls a, conditionOfCode w.toNat = some c → classOfWord k = some cls →
      reactionOfWord r = some a →
      let floor := reactionFloors.getD (cellIndex c cls) .note
      ∃ t : State, exec (.reactionWrite h w k r) s = .next t ∧
        (floor.rank ≤ a.rank → t.reactionOf c cls = a ∧
          t = { s.answer h 15 .ok false .none with reactions := t.reactions }) ∧
        (a.rank < floor.rank → t.reactionOf c cls = floor ∧
          t = { s.answer h 15 .ok true .none with reactions := t.reactions }) ∧
        (∀ d l, d ≠ c ∨ l ≠ cls → t.reactionOf d l = s.reactionOf d l) ∧
        (∀ strap, ∃ u : State, exec (.powerUp strap true) t = .next u ∧ u.reactionOf c cls = t.reactionOf c cls) ∧
        (∀ p, (t.seq p).state ≠ .outOfService → (t.seq p).state.stateClass = some cls →
          t.selectReaction p c = t.reactionOf c cls ∧
          (c.isLevel = false ∨ cls ≠ .flowing → t.applyReaction p c .hold = t.applyReaction p c .note)))

/-- EVENT_TAKE answers the set flag of highest priority, the event code first and then the scope index, and clears it
alone; with no flag set it is refused NOT_FOUND.  EVENT_CLEAR clears every flag of every kind in its mask and no other;
EVENT_ENABLE replaces the enable mask and touches no flag; a mask with a bit beyond code 14 is refused ARG by both
(R195, R196; the numbering of the mask's bits is the model's choice, notes/assumptions/10.md). -/
def Obligations.EventRequestsActOnFlags : Prop :=
  ∀ (h : Header) (m : Word) (s : State), s.Accepts h →
    ((∀ x ∈ flagKeys, s.flag x.1 x.2 = none) → exec (.eventTake h) s = .next (s.refuse h 20 .notFound)) ∧
    (16383 < m.toNat →
      exec (.eventClear h m) s = .next (s.refuse h 21 .arg) ∧ exec (.eventEnable h m) s = .next (s.refuse h 22 .arg)) ∧
    (m.toNat ≤ 16383 →
      exec (.eventEnable h m) s =
        .next ({ s with events := { s.events with enable := BitVec.ofNat 14 m.toNat } }.answer h 22 .ok false .none)) ∧
    (s.events.flags.length = 46 →
      (∀ n k sc f, flagKeys[n]? = some (k, sc) → s.flag k sc = some f →
        (∀ (j : Nat) (x : EventKind × EventScope), j < n → flagKeys[j]? = some x → s.flag x.1 x.2 = none) →
        ∃ t : State, exec (.eventTake h) s = .next t ∧ t.flag k sc = none ∧
          (∀ x ∈ flagKeys, x ≠ (k, sc) → t.flag x.1 x.2 = s.flag x.1 x.2) ∧
          t = { s.answer h 20 .ok false (.event k sc f) with events := t.events } ∧
          t.events.enable = s.events.enable) ∧
      (m.toNat ≤ 16383 →
        ∃ t : State, exec (.eventClear h m) s = .next t ∧
          (∀ x ∈ flagKeys, t.flag x.1 x.2 = if m.toNat.testBit (x.1.code - 1) then none else s.flag x.1 x.2) ∧
          t = { s.answer h 21 .ok false .none with events := t.events } ∧ t.events.enable = s.events.enable))

/-! ## Requests on positions, compressors and banks -/

/-- POSITION_STOP ENDs a FLOWING fill with STOP_REQUEST into VENT (past it where the hose is already empty), its cooling
and its bank given up and the chiller setpoint that of the fills that still flow (R165); it cancels a fill in AUTHORIZED
or ADMIT and frees its record; in any other state it is refused BUSY (R78, R93, R94, R99). -/
def Obligations.PositionStopEndsTheFill : Prop :=
  ∀ (h : Header) (w : Word) (p : Pos) (s : State), s.Accepts h → s.site.isSome = true → w.toNat = p.val →
    ((s.seq p).state.flowing = true →
      ∃ u : State, exec (.positionStop h w) s = .next (u.answer h 23 .ok false .none).settle ∧
        ((s.combined p).valid = false ∨ ((s.header p).ventDone : Int) ≤ (s.combined p).num →
          (u.seq p).state = .vent ∧ (u.seq p).endReason = some .stopRequest) ∧
        ((s.combined p).valid = true → (s.combined p).num < (s.header p).ventDone →
          (u.seq p).state = .done ∨ (u.seq p).state = .idle) ∧
        u.cool.allocOf (.position p) = none ∧ u.draw p = Draw.empty ∧ (∀ q, q ≠ p → u.seq q = s.seq q) ∧
        u.SetpointStands ∧ s.Steady (u.answer h 23 .ok false .none).settle ∧
        ((u.answer h 23 .ok false .none).settle.seq p).state.beforeVent = false) ∧
    ((s.seq p).state = .authorized ∨ (s.seq p).state = .admitting →
      ∃ t : State, exec (.positionStop h w) s = .next t ∧ (t.seq p).state.beforeVent = false ∧
        ((s.seq p).state = .authorized ∨ s.nozzleIs p 0 = true → (t.seq p).state = .idle) ∧
        (∀ i, s.recordSlot p = some i → t.logAt i = none) ∧ t.time = s.time ∧ t.reactions = s.reactions) ∧
    ((s.seq p).state = .idle ∨ (s.seq p).state = .vent ∨ (s.seq p).state = .done ∨ (s.seq p).state = .halted ∨
        (s.seq p).state = .outOfService →
      exec (.positionStop h w) s = .next (s.refuse h 23 .busy))

/-- POSITION_DISABLE takes an IDLE position OUT_OF_SERVICE: its actuator points pass to MANUAL, unless the trip latch
holds them at SAFE; POSITION_ENABLE takes it back to IDLE and its points to AUTO.  Each is answered OK with no change
where the position is already there, and refused BUSY in every other state (R23, R98, R106). -/
def Obligations.PositionLeavesAndEntersService : Prop :=
  ∀ (h : Header) (w : Word) (p : Pos) (s : State), s.Accepts h → s.site.isSome = true → w.toNat = p.val →
    ((s.seq p).state = .idle →
      exec (.positionEnable h w) s = .next (s.answer h 25 .ok false .none) ∧
      ∃ u : State, exec (.positionDisable h w) s = .next (u.answer h 24 .ok false .none).settle ∧
        (u.seq p).state = .outOfService ∧ (u.seq p).active.overpressure = false ∧ (∀ q, q ≠ p → u.seq q = s.seq q) ∧
        (∀ (i : Nat) (e : PointEntry) (r : ActRecord), i < 192 → u.entry i = some e → e.fn.isSensor = false →
          e.fn ≠ .chillerSetpoint → e.scope = .position p → u.act i = some r → r.owner = if s.latched then .safe else .manual) ∧
        s.Steady (u.answer h 24 .ok false .none).settle ∧
        ((u.answer h 24 .ok false .none).settle.seq p).state = .outOfService) ∧
    ((s.seq p).state = .outOfService →
      exec (.positionDisable h w) s = .next (s.answer h 24 .ok false .none) ∧
      ∃ u : State, exec (.positionEnable h w) s = .next (u.answer h 25 .ok false .none).settle ∧
        (u.seq p).state = .idle ∧ (∀ q, q ≠ p → u.seq q = s.seq q) ∧
        (∀ (i : Nat) (e : PointEntry) (r : ActRecord), i < 192 → u.entry i = some e → e.fn.isSensor = false →
          e.scope = .position p → u.act i = some r → r.owner = if s.latched then .safe else .auto) ∧
        s.Steady (u.answer h 25 .ok false .none).settle ∧
        ((u.answer h 25 .ok false .none).settle.seq p).state = .idle) ∧
    ((s.seq p).state ≠ .idle → (s.seq p).state ≠ .outOfService →
      exec (.positionDisable h w) s = .next (s.refuse h 24 .busy) ∧
      exec (.positionEnable h w) s = .next (s.refuse h 25 .busy))

/-- POSITION_RESET is accepted in every state: an OPEN record is closed with reason RESET and a RESERVED one freed, the
grants are given up, and the position enters IDLE where the nozzle is holstered and DONE where it is not.  The whole fill
context is then as at power-up, with every fill item absent and every timer stopped, but for the state, the last pressures
handed over, the active level conditions and the outcome of the OVERPRESSURE test (R73, R100).  The closed record is billed
with the vent mass computed then from the standing values (R100, R178); that in VENT it is the one stored at VENT entry is
the model's reading (notes/assumptions/39.md). -/
def Obligations.PositionResetClearsTheFill : Prop :=
  ∀ (h : Header) (w : Word) (p : Pos) (s : State), s.Accepts h → s.site.isSome = true → w.toNat = p.val →
    ∃ u : State, exec (.positionReset h w) s = .next (u.answer h 26 .ok false .none).settle ∧
      u.seq p =
        { Seq.start with
          state := if s.nozzleIs p 0 then .idle else .done, lastP := (s.seq p).lastP,
          lastValidP := (s.seq p).lastValidP, active := (s.seq p).active, overTest := (s.seq p).overTest } ∧
      u.draw p = Draw.empty ∧ u.cool.allocOf (.position p) = none ∧
      (∀ i r, s.recordSlot p = some i → s.logAt i = some r →
        (r.state = .reserved → u.logAt i = none) ∧
        (r.state = .opened → i ∈ u.sales.closure ∧
          ∃ q : SaleRecord, u.logAt i = some q ∧ q.state = .closed ∧ q.reason = some .reset ∧ q.number = r.number ∧
            (r.vent = none → s.Bills r q (s.ventNow r)) ∧ (∀ v, r.vent = some v → s.Bills r q v))) ∧
      (∀ q, q ≠ p → u.seq q = s.seq q) ∧ u.reactions = s.reactions ∧ u.time = s.time ∧ u.events.enable = s.events.enable ∧
      (s.nozzleIs p 0 = true → ((u.answer h 26 .ok false .none).settle.seq p).state = .idle)

/-- COMPRESSOR_RESET takes a FAULTED compressor to LOCKOUT with its timer at the minimum off time, and is refused BUSY in
every other state; COMPRESSOR_DISABLE takes any compressor to DISABLED, a run stopped with reason DISABLED;
COMPRESSOR_ENABLE takes a DISABLED one to LOCKOUT, and changes nothing in every other state (R147, R151).  That LOCKOUT
stands at the end of the event also with a minimum off time of 0 is the model's reading (notes/assumptions/25.md). -/
def Obligations.CompressorRequestsActByState : Prop :=
  ∀ (h : Header) (w : Word) (c : Comp) (s : State), s.Accepts h → s.site.isSome = true → w.toNat = c.val →
    ((s.comp c).state = .faulted →
      exec (.compressorReset h w) s =
        .next ((s.mapComp c fun r => { r with state := .lockout, timer := some (s.after (s.compSite c).minOff) }).answer h
          27 .ok false .none)) ∧
    ((s.comp c).state ≠ .faulted → exec (.compressorReset h w) s = .next (s.refuse h 27 .busy)) ∧
    ((s.comp c).state = .disabled →
      exec (.compressorDisable h w) s = .next (s.answer h 28 .ok false .none) ∧
      ∃ u : State, exec (.compressorEnable h w) s = .next (u.answer h 29 .ok false .none).settle ∧
        (u.comp c).timer = some (s.after (s.compSite c).minOff) ∧
        ((u.answer h 29 .ok false .none).settle.comp c).state = .lockout ∧
        s.Steady (u.answer h 29 .ok false .none).settle) ∧
    ((s.comp c).state ≠ .disabled →
      exec (.compressorEnable h w) s = .next (s.answer h 29 .ok false .none) ∧
      ∃ t : State, exec (.compressorDisable h w) s = .next t ∧ (t.comp c).state = .disabled ∧
        (t.comp c).lastFault = (s.comp c).lastFault ∧
        (t.comp c).lastStop = (if (s.comp c).state.inRun then some .disabled else (s.comp c).lastStop) ∧ s.Steady t)

/-- BANK_DISABLE takes a bank to DISABLED and BANK_ENABLE a DISABLED one to AVAILABLE or UNKNOWN by the validity of its
pressure point, the lowest where the table has a second one for the bank (the model's choice, notes/assumptions/42.md); the
scheduler is told, the bank's pressure and every other bank stay, and a request that changes no state changes nothing.
The answer of BANK_DISABLE stands behind the change of state and ahead of what the scheduler and the bank's waiters do at it
(R126, R136), of which the scheduler comes first (the model's choice, notes/assumptions/40.md). -/
def Obligations.BankLeavesAndEntersService : Prop :=
  ∀ (h : Header) (w : Word) (b : Bank) (s : State), s.Accepts h → s.site.isSome = true → w.toNat = b.val →
    ((s.bank b).state = .disabled → exec (.bankDisable h w) s = .next (s.answer h 30 .ok false .none)) ∧
    ((s.bank b).state ≠ .disabled →
      exec (.bankEnable h w) s = .next (s.answer h 31 .ok false .none) ∧
      ∃ t : State, exec (.bankDisable h w) s = .next t ∧
        t = (((s.putBankState b .disabled).answer h 30 .ok false .none).bankStateChanged b (s.bank b).state).settle ∧
        (t.bank b).state = .disabled ∧ (t.copy b).state = .disabled ∧
        (t.bank b).pressure = (s.bank b).pressure ∧ (∀ a, a ≠ b → (t.bank a).state = (s.bank a).state) ∧ s.Steady t) ∧
    ((s.bank b).state = .disabled →
      ∃ t : State, exec (.bankEnable h w) s = .next t ∧
        (t.bank b).state =
          (if (s.sensor .bankP (.bank b)).any LiveRecord.isValid then .available else .unknown) ∧
        (t.copy b).state = (t.bank b).state ∧ (t.bank b).pressure = (s.bank b).pressure ∧
        (∀ a, a ≠ b → (t.bank a).state = (s.bank a).state) ∧ s.Steady t)

/-! ## The station trip -/

/-- TRIP_SET is accepted in every trip state and answered OK at once.  In CLEAR it sets the latch with cause REQUEST:
every actuator point goes to SAFE and its safe value, a TRIP frame is placed and the TRIP event is set.  In LATCHED it
changes nothing.  In SETTLING it ends the settle, and the pending TRIP_RESET is answered TRIP_SOURCE_ACTIVE (R33, R35,
R36).  That this answer is placed before TRIP_SET's own is the model's choice (notes/assumptions/16.md).  At the end of
the event the trip has reached every position with its record, and every compressor, as State.Tripped says: AUTHORIZED
and ADMIT are cancelled, PULSE to VENT and DONE are HALTED with an OPEN record closed by TRIP, COOL_WAIT is STOPPED and
a run stopped into LOCKOUT (R78, R97, R114, R147, R150).  That a record closed in VENT is billed with the vent mass
stored at VENT entry is the model's reading (notes/assumptions/39.md). -/
def Obligations.TripSetLatchesTheTrip : Prop :=
  ∀ (h : Header) (s : State), s.Accepts h → s.events.flags.length = 46 →
    (s.points.trip = .clear →
      ∃ u : State, exec (.tripSet h) s = .next (u.answer h 32 .ok false .none).settle ∧
        u.points.trip = .latched ∧ u.points.cause = some .request ∧ (∀ i ∈ u.actuatorPoints, u.SafeAt i) ∧
        (.trip ⟨true, some .request⟩ ∈ u.ring.commands ∨ u.ring.sending = some (.trip ⟨true, some .request⟩)) ∧
        (u.flag .trip .station).map Flag.detail = some (.tripCause .request) ∧
        u.seqs = s.seqs ∧ u.sched = s.sched ∧ u.tables = s.tables ∧ u.sales.log = s.sales.log ∧
        (u.answer h 32 .ok false .none).settle.points.trip = .latched ∧
        (u.answer h 32 .ok false .none).settle.points.cause = some .request ∧
        (u.answer h 32 .ok false .none).settle.TripSafe ∧ s.Tripped (u.answer h 32 .ok false .none).settle) ∧
    (s.points.trip = .latched → exec (.tripSet h) s = .next (s.answer h 32 .ok false .none)) ∧
    (s.points.trip = .settling →
      exec (.tripSet h) s =
        .next (({ s with points := { s.points with trip := .latched, settle := none } }.answerDeferred
          .tripSourceActive).answer h 32 .ok false .none))

/-- The trip line becoming low sets the latch with cause LINE in CLEAR and ends a settle in SETTLING; while the line is
low already, and in LATCHED, it changes nothing but the pin.  The line going high is no source (R33, R36).  A latch it
has set reaches every position with its record, and every compressor, as State.Tripped says (R78, R97, R114, R147,
R150); the vent mass of a record closed in VENT is the one stored at VENT entry, the model's reading
(notes/assumptions/39.md). -/
def Obligations.TripLineActsOnItsFall : Prop :=
  ∀ s : State, s.quiescent → s.events.flags.length = 46 →
    (s.points.trip = .clear → s.points.linePulled = false →
      ∃ u : State, exec .tripLineLow s = .next u.settle ∧ u.points.trip = .latched ∧ u.points.cause = some .line ∧
        u.points.linePulled = true ∧ (∀ i ∈ u.actuatorPoints, u.SafeAt i) ∧
        (u.flag .trip .station).map Flag.detail = some (.tripCause .line) ∧ u.seqs = s.seqs ∧ u.tables = s.tables ∧
        u.settle.points.trip = .latched ∧ u.settle.points.cause = some .line ∧ u.settle.TripSafe ∧
        s.Tripped u.settle) ∧
    (s.points.trip = .settling → s.points.linePulled = false →
      exec .tripLineLow s =
        .next ({ s with points := { s.points with trip := .latched, settle := none, linePulled := true } }.answerDeferred
          .tripSourceActive)) ∧
    (s.points.trip = .latched ∨ s.points.linePulled = true →
      exec .tripLineLow s = .next { s with points := { s.points with linePulled := true } }) ∧
    exec .tripLineHigh s = .next { s with points := { s.points with linePulled := false } }

/-- TRIP_RESET is answered OK with no change in CLEAR; in LATCHED it starts the 20 ms settle and defers its answer,
whose place in the response queue stays taken; in SETTLING it is refused BUSY (R36, R191, R192). -/
def Obligations.TripResetStartsTheSettle : Prop :=
  ∀ (h : Header) (s : State), s.Accepts h →
    (s.points.trip = .clear → exec (.tripReset h) s = .next (s.answer h 33 .ok false .none)) ∧
    (s.points.trip = .latched →
      exec (.tripReset h) s =
        .next { s with
          points := { s.points with trip := .settling, settle := some (s.time.count + 20) },
          ring := { s.ring with answering := false, deferred := some ⟨h.src, h.tag⟩ } }) ∧
    (s.points.trip = .settling → exec (.tripReset h) s = .next (s.refuse h 33 .busy))

/-- At the settle's end the latch clears where the line is high and no detector is active: every actuator point is
resolved again, and only the points of HALTED positions stay at SAFE, the TRIP frame with state CLEAR is placed, and the
pending TRIP_RESET is answered OK; otherwise the trip returns to LATCHED and the
pending TRIP_RESET is answered TRIP_SOURCE_ACTIVE (R37).  That the counter then stands at the deadline is the model's
reading (notes/assumptions/4.md). -/
def Obligations.TripSettleEnds : Prop :=
  ∀ (d : Count) (s : State), s.quiescent → s.points.settle = some d → s.points.trip = .settling →
    (s.points.linePulled = true ∨ s.activeDetectors ≠ [] →
      exec .tripSettleExpiry s =
        .next ({ s.arriveAt d with points := { s.points with trip := .latched, settle := none } }.answerDeferred
          .tripSourceActive)) ∧
    (s.points.linePulled = false → s.activeDetectors = [] →
      ∃ u : State, exec .tripSettleExpiry s = .next u.settle ∧ u.points.trip = .clear ∧ u.points.cause = none ∧
        u.points.settle = none ∧ u.ring.deferred = none ∧ u.time = (s.arriveAt d).time ∧ u.seqs = s.seqs ∧
        u.tables = s.tables ∧ u.sched = s.sched ∧
        (s.addressed = true →
          (.trip ⟨false, none⟩ ∈ u.ring.commands ∨ u.ring.sending = some (.trip ⟨false, none⟩)) ∧
          ∀ a, s.ring.deferred = some a →
            u.ring.responses = s.ring.responses ++ [.mresp a.dst a.tag 33 .ok false .none]) ∧
        ∀ i ∈ u.actuatorPoints, ∀ e r, u.entry i = some e → u.act i = some r →
          r.effective = (match r.owner with
            | .safe => e.safe
            | .auto => r.auto
            | .manual => r.manual) ∧
          (r.owner = .safe → ∃ p, e.scope = .position p ∧ (u.seq p).state = .halted))

/-! ## RESTART -/

/-- While no SITE slot is ACTIVE, RESTART clears every flag, empties the response and notice queues, answers and does
nothing more; a settle in progress ends with the latch set and its TRIP_RESET answered BUSY before that answer.  With
one, every position goes to IDLE or DONE by its nozzle, every compressor but a DISABLED one to LOCKOUT, and the trip
latch with its cause, the tables, the reaction table, the enables, the sale counter and the clock are kept; a settle in
progress ends with the latch set and its TRIP_RESET answered BUSY.  Every flag is clear but those set since: SALE_CLOSED
of each closure made, and BANK_CRITICAL of each bank that joins the emptied queue with its critical mark (R38, R74,
R108, R141, R152, R199).  Two things are the model's: without a SITE slot the command queue is kept and no TRIP frame
placed (notes/assumptions/5.md), and LOCKOUT stands also with a minimum off time of 0 (notes/assumptions/25.md). -/
def Obligations.RestartReturnsEveryBlock : Prop :=
  ∀ (h : Header) (s : State), s.Accepts h →
    (s.site = none → s.points.trip ≠ .settling → s.ring.Served →
      ∃ t : State, exec (.restart h) s = .next t ∧ (∀ x ∈ flagKeys, t.flag x.1 x.2 = none) ∧ t.ring.notices = [] ∧
        t.ring.commands = s.ring.commands ∧ t.ring.forwarding = s.ring.forwarding ∧
        (∀ f, s.ring.sending = some f → t.ring.sending = some f ∧
          t.ring.responses = [.mresp h.src h.tag 34 .ok false .none]) ∧
        t.events.enable = s.events.enable ∧ t.points = s.points ∧ t.seqs = s.seqs ∧ t.sched = s.sched ∧
        t.tables = s.tables ∧ t.reactions = s.reactions ∧ t.time = s.time ∧ t.cool = s.cool) ∧
    (∀ d f, s.site = none → s.points.trip = .settling → s.ring.deferred = some d → s.ring.sending = some f →
      ∃ t : State, exec (.restart h) s = .next t ∧ (∀ x ∈ flagKeys, t.flag x.1 x.2 = none) ∧
        t.points = { s.points with trip := .latched, settle := none } ∧
        t.ring = { s.ring with
          responses := [.mresp d.dst d.tag 33 .busy false .none, .mresp h.src h.tag 34 .ok false .none],
          notices := [], deferred := none, answering := false } ∧
        t.events.enable = s.events.enable ∧ t.seqs = s.seqs ∧ t.sched = s.sched ∧ t.tables = s.tables ∧
        t.reactions = s.reactions ∧ t.time = s.time ∧ t.cool = s.cool) ∧
    (s.site.isSome = true →
      ∃ u : State, exec (.restart h) s = .next (u.answer h 34 .ok false .none).settle ∧
        (∀ p, (u.seq p).state = if s.nozzleIs p 0 then .idle else .done) ∧
        (let t := (u.answer h 34 .ok false .none).settle
        (∀ p, s.nozzleIs p 0 = true → (t.seq p).state = .idle) ∧ (∀ p, (t.seq p).state.beforeVent = false) ∧
        (∀ c, (t.comp c).state = if (s.comp c).state = .disabled then .disabled else .lockout) ∧
        (∀ c, (t.comp c).lastFault = (s.comp c).lastFault) ∧
        t.latched = s.latched ∧ t.points.cause = s.points.cause ∧
        t.points.trip = (if s.points.trip = .settling then .latched else s.points.trip) ∧
        (s.points.trip = .settling →
          t.points.settle = none ∧ t.ring.deferred = none ∧
          ∀ d, s.ring.deferred = some d →
            .mresp d.dst d.tag 33 .busy false .none ∈ t.ring.responses ∨
              t.ring.sending = some (.response (.mresp d.dst d.tag 33 .busy false .none))) ∧
        (∀ x ∈ flagKeys, (∀ p, x ≠ (.saleClosed, .position p)) → (∀ b, x ≠ (.bankCritical, .bank b)) →
          t.flag x.1 x.2 = none) ∧
        (∀ p,
          (∀ r, s.saleOf p = some r → r.state = .opened →
            t.flag .saleClosed (.position p) = some { detail := .sale r.number, repeats := 1 }) ∧
          ((∀ r, s.saleOf p = some r → r.state ≠ .opened) → t.flag .saleClosed (.position p) = none)) ∧
        (∀ b,
          let critical := ∃ e ∈ t.sched.queue, e.bank = b ∧ e.critical = true
          (critical → t.flag .bankCritical (.bank b) = some { detail := .none, repeats := 1 }) ∧
          (¬critical → t.flag .bankCritical (.bank b) = none)) ∧
        TablesKept s.tables t.tables ∧ t.reactions = s.reactions ∧
        t.events.enable = s.events.enable ∧ t.sales.counter = s.sales.counter ∧ t.time = s.time))

/-! ## Samples, totals, link frames, commands of other nodes -/

/-- The last reading of a SAMPLE frame for a sensor point decides its record: a valid one is GOOD and FRESH, clamped to
the point's value set and marked where it was outside, with a new deadline; an invalid one leaves the stale substitute.
A point that no reading names keeps its record (R2, R5, R6, R7).  A frame of one reading is carried on (R9): the watch
takes one step, unless the reading takes the point from NEVER to STALE, and a raise sets CONDITION, or faults the
compressor (R14, R15, R148), also at an invalid reading of a point already STALE (the model's reading of R7,
notes/assumptions/14.md); an outlet pressure recombines the pair and hands the combined value to the sequencer (R11);
SENSOR_STALE, SENSOR_DISAGREE and OVERPRESSURE stand as their levels say (R12, R106), the header of the OVERPRESSURE
test being the one in force as the hand-over begins (the model's choice, notes/assumptions/28.md); a bank pressure
reaches bank selector and scheduler (R126, R140), that of every BANK_P point where the table has a second one for the
bank (the model's choice, notes/assumptions/42.md); a HOLSTERED nozzle takes DONE to IDLE (R95), an active detector sets
the latch (R33).

In the scheduler a bank that is no compressor's target joins the back of its tier with the next arrival stamp where it
is AVAILABLE, not queued, and below its restart threshold, or an UNLOADED compressor takes it at once; it leaves at its
ceiling, and when its pressure becomes INVALID; its critical mark follows its pressure, and BANK_CRITICAL is set when
the mark passes to set, at a join too (R139 to R141, R146).  The other consumers of a reading have their statements
elsewhere: the feedback points in ActuatorDeadlinesAct, the nozzle of a fill in WaitingEndsAtItsLimit, the pressure in
RAMP and in VENT in PulseSettleDecides and VentTimeoutClosesTheSale, RUN_FB in CompressorTimersAct, and the temperatures
and the chiller in OutletMonitorTimersAct. -/
def Obligations.SampleDecidesTheRecord : Prop :=
  ∀ (h : Header) (l : List Reading) (s b : State), s.Receives (sampleFrame h l) b →
    ∃ t : State, exec (.sample h l) s = .next t ∧
      (∀ i e old x r y, s.entry i = some e → s.live i = some old → l = x ++ r :: y →
        s.pointAt h.src.toNat r.channel = some i → (∀ q ∈ y, s.pointAt h.src.toNat q.channel ≠ some i) →
        ∃ v, t.live i = some v ∧
          (e.validReading r = true →
            v.value = clampInt (s.valueSet i e).1 (s.valueSet i e).2 (e.fn.valueOfWord r.value) ∧ v.quality = .good ∧
            v.clamped = decide (v.value ≠ e.fn.valueOfWord r.value) ∧ v.freshness = .fresh ∧
            v.deadline = some (s.time.count + BitVec.ofNat 32 e.deadline)) ∧
          (e.validReading r = false →
            v.value = e.substitute ∧ v.quality = .invalid ∧ v.clamped = false ∧ v.freshness = .stale ∧
            v.deadline = none)) ∧
      (∀ i, (∀ r ∈ l, s.pointAt h.src.toNat r.channel ≠ some i) → t.live i = s.live i) ∧
      (∀ r i e old v, l = [r] → s.pointAt h.src.toNat r.channel = some i → s.entry i = some e → s.live i = some old →
        t.live i = some v →
        (∀ limit hyst w, e.watch = some (limit, hyst) → old.watch = some w →
          e.validReading r = true ∨ old.freshness ≠ .never →
          let past : Bool := if e.fn.leanLow then decide (v.value ≤ limit) else decide (limit ≤ v.value)
          let back : Bool := if e.fn.leanLow then decide (limit + hyst < v.value) else decide (v.value < limit - hyst)
          v.watch = some (match w with
            | .armed => if past then .disarmed else .armed
            | .disarmed => if back then .armed else .disarmed) ∧
          (w = .armed → past = true → s.events.flags.length = 46 →
            (∀ p, e.scope = .position p → e.fn ≠ .valveFb → (t.flag .condition (.position p)).isSome = true) ∧
            (∀ b, e.scope = .bank b → e.fn = .bankP →
              (t.flag .condition .station).map Flag.detail =
                some (.stationWatch (if v.quality = .good then .limitWatch else .sensorStale) i)) ∧
            (∀ c, e.scope = .compressor c → e.fn = .dischargeT → (s.comp c).state ≠ .disabled →
              (s.comp c).state ≠ .faulted →
              (t.comp c).state = .faulted ∧
              (t.comp c).lastFault = some (if v.quality = .good then .dischargeHot else .dischargeStale)))) ∧
        (e.validReading r = false → old.freshness = .never → v.watch = old.watch) ∧
        (∀ p, e.scope = .position p → e.fn ≠ .valveFb →
          (t.seq p).active.sensorStale = !(t.stalePoints p).isEmpty ∧
          (t.seq p).active.sensorDisagree = ((t.points.pairs.get p).state == .disagree) ∧
          (e.fn = .nozzle → (s.seq p).state = .done → t.nozzleIs p 0 = true →
            (t.seq p).state = .idle ∨ (t.seq p).state = .halted) ∧
          (e.fn = .outletPA ∨ e.fn = .outletPB →
            (t.seq p).lastP = some (t.combined p) ∧
            (∀ hd, (s.seq p).state ≠ .outOfService → s.headerFor p = some hd →
              (t.seq p).active.overpressure =
                ((t.combined p).valid && decide ((hd.maxLimit : Int) < (t.combined p).num))) ∧
            ∀ x y, t.sensor .outletPA (.position p) = some x → t.sensor .outletPB (.position p) = some y →
              let pair := t.points.pairs.get p
              (x.isValid = true → y.isValid = true → (x.value - y.value).natAbs ≤ s.tolerance p →
                pair = ⟨.agree, (x.value + y.value + 1) / 2, x.quality.worst y.quality, x.clamped || y.clamped⟩) ∧
              (x.isValid = true → y.isValid = true → s.tolerance p < (x.value - y.value).natAbs →
                pair = ⟨.disagree, max x.value y.value, .degraded, x.clamped || y.clamped⟩) ∧
              (x.isValid = true → y.isValid = false → pair = ⟨.single, x.value, .degraded, x.clamped⟩) ∧
              (x.isValid = false → y.isValid = true → pair = ⟨.single, y.value, .degraded, y.clamped⟩) ∧
              (x.isValid = false → y.isValid = false → pair = ⟨.neither, 10000, .invalid, false⟩))) ∧
        (∀ b, e.scope = .bank b → e.fn = .bankP →
          (t.bank b).pressure = v.toValue ∧ (t.copy b).pressure = v.toValue ∧
          ((t.bank b).state = if (s.bank b).state = .disabled then .disabled
            else if v.quality = .invalid then .unknown else .available) ∧
          ∃ u : State, t = u.settle ∧
            let k := s.bankSite b
            let queue := s.sched.queue
            let critical := v.value < (k.critical : Int)
            let loaded := ∀ c, (s.comp c).state ≠ .unloaded
            let raised := u.flag .bankCritical (.bank b) = some
              { detail := .none,
                repeats := (s.flag .bankCritical (.bank b)).elim 1 fun f => min (f.repeats + 1) 255 }
            s.targeted b = false →
              (v.isValid = true → v.value < k.restart → v.value < k.ceiling → (u.copy b).state = .available →
                s.queued b = false →
                (loaded →
                  u.sched.arrivals = s.sched.arrivals + 1 ∧
                  ∃ x y, queue = x ++ y ∧
                    u.sched.queue = x ++ ⟨b, k.tier, s.sched.arrivals + 1, decide critical⟩ :: y ∧
                    (∀ q ∈ x, q.tier.rank ≤ k.tier.rank) ∧ ∀ q ∈ y.head?, k.tier.rank < q.tier.rank) ∧
                (∀ c, queue = [] → (s.comp c).state = .unloaded → (∀ d, d ≠ c → (s.comp d).state ≠ .unloaded) →
                  (u.comp c).state = .running ∧ (u.comp c).target = some b ∧ (u.comp c).timer = none ∧
                  u.sched.queue = []) ∧
                (critical → s.events.flags.length = 46 → raised)) ∧
              (loaded → (v.isValid = true ∧ k.ceiling ≤ v.value ∧ k.restart ≤ v.value) ∨
                  (v.isValid = false ∧ (s.bank b).state = .available) →
                u.sched.queue = queue.filter fun q => q.bank != b) ∧
              (loaded → v.isValid = true → v.value < k.ceiling → (s.bank b).state = .available → s.queued b = true →
                u.sched.queue = queue.map (fun q => if q.bank = b then { q with critical := decide critical } else q) ∧
                (critical → (∃ q ∈ queue, q.bank = b ∧ q.critical = false) → s.events.flags.length = 46 → raised))) ∧
        (e.scope = .station → e.fn = .detector → v.value = 1 → s.points.trip = .clear →
          t.points.trip = .latched ∧ t.points.cause = some (.detector i))) ∧
      TablesKept s.tables t.tables ∧ SalesKept s.sales t.sales ∧ t.reactions = s.reactions ∧ t.time = s.time

/-- A TOTAL frame makes the intake of every position that names its meter FRESH with a new deadline; a good status takes
the totaliser as the new baseline, and a FAULT keeps the baseline and makes the meter FAULTY; a first frame, and a delta
within the limit of the class header in force, leave it HEALTHY, and a delta above the limit FAULTY.  That header is the
present one of the position where no lower position names the meter or the position holds no record, and that of a PROTOCOL
slot in every case; where none is in force the delta is formed and the health stays (notes/assumptions/22.md).  Every other
position's intake stays, its interval mark apart (R169, R170).  Positions that share a meter are taken in order (the model's
choice, notes/assumptions/5.md).

The delta goes on to the sale of a position that alone names the meter.  In an open interval and within the limit it is
added to the gross mass of its OPEN record, and nothing else follows below the preset threshold or in VENT, while a gross
mass at the threshold ENDs a flowing fill (R88, R170).  A FAULT, a first frame, a delta above the limit and a closed interval
count nothing; FAULT and a delta above the limit mark the record METER_SUSPECT; and a delta above the creep limit in a closed
interval raises METER_WHILE_CLOSED, in a CONDITION event.  That the mark stands also in a record which METER_FAULT's own reaction closes,
being set before METER_FAULT is raised, is the model's choice (notes/assumptions/40.md). -/
def Obligations.TotalUpdatesTheIntake : Prop :=
  ∀ (h : Header) (w : Word) (st : Status) (s b : State), s.Receives (totalFrame h w st) b →
    ∃ t : State, exec (.total h w st) s = .next t ∧
      (∀ p site, s.posSite p = some site → site.meter ≠ 0 → site.meter = h.src.toNat →
        let n := s.sales.intake.get p
        let m := t.sales.intake.get p
        m.freshness = .fresh ∧ m.deadline = some (s.time.count + BitVec.ofNat 32 site.meterTime) ∧
        (st = .fault → m.baseline = n.baseline ∧ m.healthy = false) ∧
        (st = .ok → m.baseline = some w ∧ (n.baseline = none → m.healthy = true))) ∧
      (∀ p site v, s.posSite p = some site → site.meter ≠ 0 → site.meter = h.src.toNat → st = .ok →
        (s.sales.intake.get p).baseline = some v →
        let n := s.sales.intake.get p
        let m := t.sales.intake.get p
        let within := fun (hd : ClassHeader) => m.healthy = true ↔ (w - v).toNat ≤ hd.meterDelta
        (∀ hd, s.headerFor p = some hd →
          (∀ q k, q.val < p.val → s.posSite q = some k → k.meter ≠ h.src.toNat) ∨ s.saleOf p = none → within hd) ∧
        (m.healthy = n.healthy ∨ ∃ id, within ((s.tables.protocol.slot id).header (s.cls p))) ∧
        (s.headerFor p = none → m.healthy = n.healthy)) ∧
      (∀ p, (∀ site, s.posSite p = some site → site.meter = 0 ∨ site.meter ≠ h.src.toNat) →
        { t.sales.intake.get p with interval := .gasOpen } = { s.sales.intake.get p with interval := .gasOpen }) ∧
      (∀ p site, s.posSite p = some site → site.meter ≠ 0 → site.meter = h.src.toNat →
        (∀ q k, q ≠ p → s.posSite q = some k → k.meter ≠ h.src.toNat) →
        let n := s.sales.intake.get p
        let good := fun v hd => st = .ok ∧ n.baseline = some v ∧ s.headerFor p = some hd ∧ (w - v).toNat ≤ hd.meterDelta
        let spoilt := st = .fault ∨ ∃ v hd, n.baseline = some v ∧ s.headerFor p = some hd ∧ hd.meterDelta < (w - v).toNat
        (∀ i r, s.recordSlot p = some i → s.logAt i = some r → r.state = .opened → (s.seq p).state.metered = true →
          (∀ v hd m, good v hd → n.interval = .gasOpen → (s.seq p).threshold = some m →
            let gross := min (r.gross + (w - v).toNat) 16777215
            (gross < m ∨ (s.seq p).state = .vent →
              t = { b with sales := t.sales } ∧ (∀ j, j ≠ i → t.logAt j = s.logAt j) ∧
              t.logAt i = some
                { r with gross := gross,
                         marks := { r.marks with
                           clamped := r.marks.clamped || decide (16777215 < r.gross + (w - v).toNat) } }) ∧
            (m ≤ gross → (s.seq p).state.flowing = true →
              (t.seq p).state.beforeVent = false ∧ ∃ q, t.logAt i = some q ∧ q.gross = gross)) ∧
          (spoilt ∨ n.baseline = none ∨ n.interval = .gasClosed →
            ∃ q, t.logAt i = some q ∧ q.gross = r.gross ∧ (spoilt → q.marks.meterSuspect = true))) ∧
        (∀ v hd, good v hd → n.interval = .gasClosed →
          (hd.creep < (w - v).toNat → s.events.flags.length = 46 → (t.flag .condition (.position p)).isSome = true) ∧
          ((w - v).toNat ≤ hd.creep → t = { b with sales := t.sales } ∧ t.sales.log = s.sales.log))) ∧
      TablesKept s.tables t.tables ∧ SalesKept s.sales t.sales ∧ t.reactions = s.reactions ∧ t.time = s.time

/-- The expiry of a sensor point's freshness deadline makes the point stale: its substitute, INVALID, with no deadline,
and every other sensor record stays.  The expiry of a meter intake deadline makes the intake STALE and FAULTY with its
baseline kept, raising METER_FAULT where the meter was HEALTHY (R8, R171).  That the counter then stands at the deadline is
the model's reading (notes/assumptions/4.md). -/
def Obligations.SilenceMakesStale : Prop :=
  ∀ (d : Count) (s : State), s.quiescent →
    (∀ (i : Fin 192) e old, s.entry i.val = some e → s.live i.val = some old → old.deadline = some d →
      ∃ t v, exec (.pointDeadlineExpiry i) s = .next t ∧ t.live i.val = some v ∧ v.value = e.substitute ∧
        v.quality = .invalid ∧ v.clamped = false ∧ v.freshness = .stale ∧ v.deadline = none ∧
        (∀ j, j ≠ i.val → t.live j = s.live j) ∧ TablesKept s.tables t.tables ∧ SalesKept s.sales t.sales ∧
        t.reactions = s.reactions ∧ t.time = (s.arriveAt d).time) ∧
    (∀ p : Fin 6, (s.sales.intake.get p).deadline = some d →
      ∃ t : State, exec (.meterDeadlineExpiry p) s = .next t ∧
        (t.sales.intake.get p).freshness = .stale ∧ (t.sales.intake.get p).deadline = none ∧
        (t.sales.intake.get p).healthy = false ∧
        (t.sales.intake.get p).baseline = (s.sales.intake.get p).baseline ∧
        (∀ q, q ≠ p →
          { t.sales.intake.get q with interval := .gasOpen } = { s.sales.intake.get q with interval := .gasOpen }) ∧
        ((s.sales.intake.get p).healthy = true → s.events.flags.length = 46 →
          (t.flag .condition (.position p)).isSome = true) ∧
        TablesKept s.tables t.tables ∧ SalesKept s.sales t.sales ∧ t.reactions = s.reactions ∧
        t.time = (s.arriveAt d).time)

/-- A LINK frame that no position takes changes nothing, whatever its status and command (R116).  Taken by one position with
good values and the tank within its limit, it stores the clamped values, restarts the link timer, makes a PENDING link
COMMUNICATED and computes the SOC, and does nothing else where its command and its tests ask for nothing.  HALT holds a
flowing fill, RUN lets a fill go on that VEHICLE alone holds, ABORT ENDs a flowing fill and cancels one in ADMIT; in RAMP
a communicated fill falls back on disagreement, and ENDs at the SOC end (R118, R119, R122, R123).  A FAULT makes the values
INVALID and a communicated fill fall back (R120, R124); a hot tank raises TANK_HOT and its reaction follows (R121).  Four
things are the model's: storing the command and making PENDING COMMUNICATED in VENT (notes/assumptions/37.md), values that
were absent until a FAULT frame becoming INVALID substitutes with it (21.md), and the CONDITION detail naming the cell's
reaction also where it acts as NOTE (30.md). -/
def Obligations.LinkFrameIsStored : Prop :=
  ∀ (h : Header) (a c k : Word) (st : Status) (s b : State), s.Receives (linkFrame h a c st k) b →
    ((∀ q, s.takesLink q h.src = false) → exec (.link h a c st k) s = .next b) ∧
    (∃ t : State, exec (.link h a c st k) s = .next t ∧ s.Steady t) ∧
    ∀ p l g, s.takesLink p h.src = true → (∀ q, q ≠ p → s.takesLink q h.src = false) →
      (s.seq p).link = some l → s.boundGas p = some g →
      let q := s.seq p
      let hd := s.header p
      let command : VehicleCommand := if k = 0 then .run else if k = 2 then .abort else .halt
      let press : Value := ⟨clampInt 0 10000 a.toNat, .good, decide (clampInt 0 10000 a.toNat ≠ a.toNat)⟩
      let temp : Value := ⟨clampInt (-600) 1000 c.toInt, .good, decide (clampInt (-600) 1000 c.toInt ≠ c.toInt)⟩
      let soc := stateOfCharge (g.density press temp) (g.heldReference (s.cls p))
      let stored : LinkState :=
        { mode := if l.mode = .pending then .communicated else l.mode, cause := l.cause,
          pressure := some press, temp := some temp, lastPress := some press.num, lastTemp := some temp.num,
          soc := some soc, command := command, timer := some (s.time.count + BitVec.ofNat 32 hd.linkTimeout) }
      let agrees := ∀ v, q.lastP = some v → v.valid = true → (press.num - v.num).natAbs ≤ hd.linkTol
      let charged := soc.valid = true ∧ (hd.socEnd : Int) ≤ soc.num
      (st = .ok → temp.num ≤ hd.tankTempMax →
        ((q.state = .admitting ∧ command ≠ .abort) ∨ q.state = .vent ∨ (command = .run ∧ q.causes.vehicle = false) →
          (q.state = .ramp → stored.mode = .communicated → agrees ∧ ¬charged) →
          ∃ t : State, exec (.link h a c st k) s = .next t ∧ t.seq p = { q with link := some stored } ∧
            (∀ j, j ≠ p → t.seq j = s.seq j) ∧ t = { b with seqs := t.seqs }) ∧
        (command = .halt → q.state.flowing = true →
          ∃ t : State, exec (.link h a c st k) s = .next t ∧ (t.seq p).causes = { q.causes with vehicle := true } ∧
            (t.seq p).link = some stored ∧ (t.seq p).state = (if q.state = .switch then .switch else .hold) ∧
            (q.state = .pulse →
              (t.seq p).resume = some .pulse ∧
                (t.seq p).holdLimit = some (s.time.count + BitVec.ofNat 32 hd.holdLimit)) ∧
            (q.state = .ramp →
              (t.seq p).resume = some .ramp ∧
                (t.seq p).holdLimit = some (s.time.count + BitVec.ofNat 32 hd.holdLimit)) ∧
            ∀ j, j ≠ p → t.seq j = s.seq j) ∧
        (command = .run → q.causes.vehicle = true →
          (q.state = .switch ∨ q.state = .hold ∧ q.causes ≠ ⟨true, false, false, false⟩ →
            ∃ t : State, exec (.link h a c st k) s = .next t ∧
              t.seq p = { q with link := some stored, causes := { q.causes with vehicle := false } }) ∧
          (q.state = .hold → q.causes = ⟨true, false, false, false⟩ →
            (s.bankValvesMatched p = false →
              ∃ t : State, exec (.link h a c st k) s = .next t ∧ (t.seq p).state = .switch ∧
                (t.seq p).resume = q.resume ∧ (t.seq p).causes = HoldCauses.empty) ∧
            (s.bankValvesMatched p = true → q.resume = some .pulse ∨ stored.mode ≠ .communicated →
              ∃ t : State, exec (.link h a c st k) s = .next t ∧
                (t.seq p).state = (if q.resume = some .pulse then .pulse else .ramp) ∧ (t.seq p).holdLimit = none ∧
                (t.seq p).causes = HoldCauses.empty ∧ (t.seq p).link = some stored))) ∧
        (command = .abort →
          (q.state.flowing = true →
            ∃ t : State, exec (.link h a c st k) s = .next t ∧ (t.seq p).state.beforeVent = false ∧
              ((t.seq p).state = .vent → (t.seq p).endReason = some .vehicleAbort)) ∧
          (q.state = .admitting →
            ∃ t : State, exec (.link h a c st k) s = .next t ∧ (t.seq p).state.beforeVent = false ∧
              (s.nozzleIs p 0 = true → (t.seq p).state = .idle) ∧ ∀ i, s.recordSlot p = some i → t.logAt i = none)) ∧
        (command = .run → q.state = .ramp → q.causes.vehicle = false → stored.mode = .communicated →
          (¬agrees → s.events.flags.length = 46 →
            ∃ t : State, exec (.link h a c st k) s = .next t ∧ (t.flag .linkLost (.position p)).isSome = true ∧
              ∀ m, (t.seq p).link = some m →
                m.mode = .nonCommunicated ∧ m.cause = some .disagree ∧ m.pressure = some (Value.substitute 10000) ∧
                m.temp = some (Value.substitute 1000) ∧ m.lastPress = some press.num) ∧
          (agrees → charged →
            ∃ t : State, exec (.link h a c st k) s = .next t ∧ (t.seq p).state.beforeVent = false ∧
              ((t.seq p).state = .vent → (t.seq p).endReason = some .full)))) ∧
      (st = .fault →
        ∃ t : State, exec (.link h a c st k) s = .next t ∧
          (∀ m, (t.seq p).link = some m →
            m.pressure = some (Value.substitute 10000) ∧ m.temp = some (Value.substitute 1000) ∧
            m.lastPress = l.lastPress ∧ m.lastTemp = l.lastTemp ∧ m.timer = l.timer ∧ m.command = command ∧
            m.soc = some (stateOfCharge (g.density (Value.substitute 10000) (Value.substitute 1000))
              (g.heldReference (s.cls p))) ∧
            m.mode = (if l.mode = .communicated then .nonCommunicated else l.mode) ∧
            m.cause = (if l.mode = .communicated then some .fault else l.cause)) ∧
          (l.mode = .communicated → s.events.flags.length = 46 → (t.flag .linkLost (.position p)).isSome = true) ∧
          (hd.tankTempMax < 1000 → s.events.flags.length = 46 →
            (t.flag .condition (.position p)).isSome = true)) ∧
      (st = .ok → hd.tankTempMax < temp.num → s.events.flags.length = 46 →
        let reaction := s.selectReaction p .tankHot
        ∃ t : State, exec (.link h a c st k) s = .next t ∧
          (t.flag .condition (.position p)).map Flag.detail = some (.raise .tankHot (.value temp.num) reaction) ∧
          (reaction = .finish → q.state ≠ .vent → (t.seq p).state.beforeVent = false) ∧
          (reaction = .halt → (t.seq p).state = .halted) ∧ (reaction = .trip → t.latched = true) ∧
          (reaction = .note → q.state = .vent →
            (t.seq p).state = .vent ∧ (t.seq p).link = some stored ∧ ∀ j, j ≠ p → t.seq j = s.seq j))

/-- The expiry of the link timer makes the link values INVALID.  A communicated fill outside RAMP falls back: its mode
is NON_COMMUNICATED with cause TIMEOUT, its record is marked LINK_LOST and LINK_LOST is set.  In RAMP at or above the
new end target it ENDs.  A fill that was not communicated keeps its mode (R120, R124).  That the counter then stands at
the deadline is the model's reading (notes/assumptions/4.md), and that the SOC, whose number R120 keeps, keeps its
CLAMPED mark too is its choice (55.md). -/
def Obligations.LinkTimeoutFallsBack : Prop :=
  ∀ (p : Fin 6) (l : LinkState) (d : Count) (s : State), s.quiescent → (s.seq p).link = some l → l.timer = some d →
    (l.mode ≠ .communicated →
      exec (.linkTimerExpiry p) s =
        .next ((s.arriveAt d).mapSeq p fun q => { q with link := some { l.invalidate with timer := none } })) ∧
    (l.mode = .communicated → s.events.flags.length = 46 →
      ∃ t : State, exec (.linkTimerExpiry p) s = .next t ∧ (t.flag .linkLost (.position p)).isSome = true ∧
        ((s.seq p).state ≠ .ramp →
          t.seq p = { s.seq p with
            link := some { l.invalidate with timer := none, mode := .nonCommunicated, cause := some .timeout } } ∧
          (∀ i r, s.recordSlot p = some i → s.logAt i = some r →
            t.logAt i = some { r with marks := { r.marks with linkLost := true } }) ∧
          (∀ q, q ≠ p → t.seq q = s.seq q)) ∧
        (∀ v, (s.seq p).state = .ramp → (s.seq p).lastP = some v → v.valid = true →
          ((s.combination p).endPress : Int) ≤ v.num → (t.seq p).state.beforeVent = false) ∧
        t.time = (s.arriveAt d).time ∧ t.reactions = s.reactions)

/-- A COMMAND from another node to one of the part's actuator points is removed from the ring and reported while AUTO or
SAFE owns the point; it is forwarded while MANUAL owns it, and its value, clamped, becomes the manual and the effective
value; a COMMAND to anything else is only forwarded (R32). -/
def Obligations.CommandFilterActsByOwner : Prop :=
  ∀ (h : Header) (k v : Word) (s : State), s.Copies h → h.dst ≠ 255 →
    (s.actuatorAt h.dst.toNat k = none →
      exec (.command h k v) s = .next (s.forwarded (commandFrame h k v))) ∧
    (∀ i e r, s.actuatorAt h.dst.toNat k = some i → s.entry i = some e → s.act i = some r →
      (r.owner = .auto ∨ r.owner = .safe →
        exec (.command h k v) s = .next (s.setFlag .commandBlocked .station (.point i))) ∧
      (r.owner = .manual →
        ∃ (u : State) (q : ActRecord), exec (.command h k v) s = .next u.settle ∧ u.act i = some q ∧
          q.manual = e.clampAct (e.fn.valueOfWord v) ∧ q.effective = q.manual ∧ q.owner = .manual ∧ q.auto = r.auto ∧
          q.refresh = s.time.count + BitVec.ofNat 32 e.refresh ∧
          u.ring.forwarding = (s.forwarded (commandFrame h k v)).ring.forwarding ∧
          (∀ j, j ≠ i → u.record j = s.record j) ∧ u.seqs = s.seqs ∧ u.tables = s.tables ∧ u.sched = s.sched ∧
          u.events = s.events))

/-! ## Sales -/

/-- An AUTHORIZE that passes every check is accepted: the sale number counter goes up by 1, a FREE log record becomes
RESERVED with the sale's terms, it is bound to the ACTIVE GAS, PROTOCOL and TARIFF slots, and a FLEET reservation is
counted.  Where the nozzle is not yet COUPLED the position is then AUTHORIZED with the sale number, the preset
threshold and the couple timer.  Where it is, the position goes on before any hand-over is taken: to ADMIT with its RESERVED
record where some bank suits it and it holds no allocation yet, with a draw port or a place in a wait queue, and otherwise
to DONE with the record freed (R65, R76, R78, R79, R128, R174).

The unit price is that of the ACTIVE TARIFF at the present minute's band, the position's class and tier 0, or the contract's
tier.  The effective preset is the class maximum sale mass for NONE and for a value of 0, else the mass asked for, or the mass
the amount buys rounded down, clamped to that maximum; for FLEET it is then reduced to what the contract has left.  A clamp to
the maximum alone marks the record and the PAY_RESULT CLAMPED (R173, R174). -/
def Obligations.AuthorizeReservesTheSale : Prop :=
  ∀ (h : Header) (pos : Word) (ref : BitVec 32) (card con preset : Word) (value : BitVec 32) (x : Terms) (s : State),
    s.Takes h → s.terms h ⟨pos, ref, card, con, preset, value⟩ = .ok x →
    ∃ t : State, exec (.authorize h pos ref card con preset value) s = .next t ∧ t.sales.counter = s.sales.counter + 1 ∧
      t.time = s.time ∧ t.reactions = s.reactions ∧ (∀ i, t.live i = s.live i) ∧
      (let tariff := s.tables.tariff.slot x.bind.tariff.slot
        let price := fun tier => tariff.price (tariff.priceBand s.time.minute) (s.cls x.position) tier
        let most := ((s.tables.protocol.slot x.bind.protocol.slot).header (s.cls x.position)).maxSale
        let wanted := if preset = 1 then value.toNat else value.toNat * 10000 / x.price
        let asked := if preset = 0 ∨ value = 0 then most else min wanted most
        (card = 0 ∨ card = 1) ∧ (preset = 0 ∨ preset = 1 ∨ preset = 2) ∧
        (card = 0 → x.contract = none ∧ x.price = price 0 ∧ x.effective = asked) ∧
        (card = 1 →
          ∃ c, s.contract con.toNat = some c ∧ x.contract = some con.toNat ∧ x.price = price c.tier ∧
            x.effective = min asked (c.remaining - c.reserved)) ∧
        (x.clamped = true ↔ preset ≠ 0 ∧ value ≠ 0 ∧ most < wanted)) ∧
      let paid : Response :=
        .payResult h.src 1 pos ref .ok x.clamped
          (some ⟨s.sales.counter + 1, x.effective, x.price, if x.contract.isSome then some x.effective else none⟩)
      let fresh : Marks :=
        { meterSuspect := false, degradedPressure := false, linkLost := false, clamped := x.clamped }
      (s.nozzleIs x.position 2 = false →
        let p := x.position
        p.val = pos.toNat ∧ s.logAt x.slot = none ∧
        (∃ r, t.logAt x.slot = some r ∧ r.state = .reserved ∧ r.number = s.sales.counter + 1 ∧ r.position = p ∧
          r.reference = ref ∧ r.effective = x.effective ∧ r.price = x.price ∧ r.bind = x.bind ∧ r.gross = 0 ∧
          r.contract = x.contract ∧ (r.reservation = if x.contract.isSome then some x.effective else none) ∧
          r.marks = fresh) ∧
        (paid ∈ t.ring.responses ∨ t.ring.sending = some (.response paid)) ∧
        (∀ j, j ≠ x.slot → t.logAt j = s.logAt j) ∧
        t.tables = s.tables.mapBinds x.bind (· + 1) ∧ s.tables.activeBind = some x.bind ∧
        (∀ id c, x.contract = some id → s.contract id = some c →
          t.contract id = some { c with reserved := c.reserved + x.effective }) ∧
        (t.seq p).state = .authorized ∧ (t.seq p).sale = some (s.sales.counter + 1) ∧
        (t.seq p).threshold = some (x.effective - (t.header p).anticipation) ∧
        (t.seq p).couple = some (s.time.count + BitVec.ofNat 32 (t.header p).couple) ∧
        (s.recordSlot p = none → t.saleOf p = t.logAt x.slot) ∧
        (∀ q, q ≠ p → t.seq q = s.seq q) ∧ t.sched = s.sched ∧ t.draws = s.draws) ∧
      (s.nozzleIs x.position 2 = true →
        let p := x.position
        p.val = pos.toNat ∧ s.logAt x.slot = none ∧ s.tables.activeBind = some x.bind ∧
        ∃ u : State, t = u.settle ∧ u.sales.counter = s.sales.counter + 1 ∧ (∀ q, q ≠ p → u.seq q = s.seq q) ∧
          (paid ∈ u.ring.responses ∨ u.ring.sending = some (.response paid)) ∧
          (∀ r, u.logAt x.slot = some r →
            r.number = s.sales.counter + 1 ∧ r.position = p ∧ r.reference = ref ∧ r.effective = x.effective ∧
            r.price = x.price ∧ r.bind = x.bind ∧ r.contract = x.contract ∧
            (r.reservation = if x.contract.isSome then some x.effective else none)) ∧
          ((u.seq p).state = .admitting →
            (u.seq p).sale = some (s.sales.counter + 1) ∧
            (u.seq p).threshold = some (x.effective - (u.header p).anticipation) ∧ (u.seq p).couple = none ∧
            (u.seq p).link = some LinkState.start ∧
            (u.seq p).holdLimit = some (s.time.count + BitVec.ofNat 32 (u.header p).holdLimit) ∧
            (u.draw p).claim.isSome = !(u.draw p).wait.isSome) ∧
          (s.recordSlot p = none →
            (s.Supplied p → s.cool.allocOf (.position p) = none →
              (u.seq p).state = .admitting ∧ u.logAt x.slot ≠ none) ∧
            (¬s.Supplied p → (u.seq p).state = .done ∧ u.logAt x.slot = none) ∧
            (∀ j, j ≠ x.slot → u.logAt j = s.logAt j) ∧
            (u.logAt x.slot = none → (u.seq p).state = .done ∧ u.tables = s.tables ∧
              ∀ id, u.contract id = s.contract id) ∧
            (∀ r, u.logAt x.slot = some r → r.state ≠ .closed →
              u.tables = s.tables.mapBinds x.bind (· + 1) ∧ u.recordSlot p = some x.slot ∧
              (∀ id c, x.contract = some id → s.contract id = some c →
                u.contract id = some { c with reserved := c.reserved + x.effective }) ∧
              ((u.seq p).state = .admitting → r.state = .reserved ∧ r.gross = 0 ∧ r.marks = fresh))))

/-- An AUTHORIZE is refused by the first check it fails and changes no state: NO_TABLE, ARG, NOT_TERMINAL,
OUT_OF_SERVICE, BUSY, TRIP_ACTIVE, NO_TIME, NO_TABLE, LOG_FULL, NOT_FOUND, CONTRACT, ARG, ARG, and PRESET_LOW or
ALLOWANCE (R172).  That no refusal is marked CLAMPED, ALLOWANCE after the preset was clamped to the class maximum sale
mass (R173) included, is the model's choice (notes/assumptions/38.md). -/
def Obligations.AuthorizeIsRefusedInOrder : Prop :=
  ∀ (h : Header) (pos : Word) (ref : BitVec 32) (card con preset : Word) (value : BitVec 32) (s : State), s.Takes h →
    let refused := fun res => exec (.authorize h pos ref card con preset value) s =
      .next (s.answerPay h 1 pos ref res false none)
    (s.site = none → refused .noTable) ∧
    (s.site.isSome = true →
      (5 < pos.toNat ∨ 1 < card.toNat ∨ 2 < preset.toNat ∨ (preset = 1 ∧ 16777215 < value.toNat) ∨
        (preset = 2 ∧ 99999999 < value.toNat) → refused .arg) ∧
      ∀ (p : Pos) (site : PosSite), pos.toNat = p.val → card.toNat ≤ 1 → preset.toNat ≤ 2 →
        (preset = 1 → value.toNat ≤ 16777215) → (preset = 2 → value.toNat ≤ 99999999) → s.posSite p = some site →
        (site.terminal = 0 ∨ site.terminal ≠ h.src.toNat → refused .notTerminal) ∧
        (site.terminal ≠ 0 → site.terminal = h.src.toNat →
          ((s.seq p).state = .outOfService → refused .outOfService) ∧
          ((s.seq p).state ≠ .outOfService → (s.seq p).state ≠ .idle → refused .busy) ∧
          ((s.seq p).state = .idle →
            (s.latched = true → refused .tripActive) ∧
            (s.latched = false →
              (s.time.valid = false → refused .noTime) ∧
              (s.time.valid = true →
                (s.tables.gas.active = none ∨ s.tables.protocol.active = none ∨ s.tables.tariff.active = none →
                  refused .noTable) ∧
                ∀ b, s.tables.activeBind = some b →
                  let header := (s.tables.protocol.slot b.protocol.slot).header site.cls
                  let tariff := s.tables.tariff.slot b.tariff.slot
                  let price := fun tier => tariff.price (tariff.priceBand s.time.minute) site.cls tier
                  ((∀ r ∈ s.sales.log, r ≠ none) ∨ 4294967295 ≤ s.sales.counter → refused .logFull) ∧
                  (none ∈ s.sales.log → s.sales.counter < 4294967295 →
                    (card = 1 →
                      (s.contract con.toNat = none → refused .notFound) ∧
                      ∀ c, s.contract con.toNat = some c →
                        (c.active = false ∨ c.permits site.cls = false → refused .contract) ∧
                        (c.active = true → c.permits site.cls = true → preset = 2 → refused .arg) ∧
                        (c.active = true → c.permits site.cls = true → ∀ k, presetOfWord preset = some k → k ≠ .amount →
                          min (effectivePreset k value.toNat (price c.tier) header.maxSale).1
                            (c.remaining - c.reserved) < header.minSale → refused .allowance)) ∧
                    (card = 0 →
                      (preset = 2 → price 0 = 0 → refused .arg) ∧
                      (∀ k, presetOfWord preset = some k → (k = .amount → price 0 ≠ 0) →
                        (effectivePreset k value.toNat (price 0) header.maxSale).1 < header.minSale →
                        refused .presetLow))))))))

/-- A CANCEL is refused NO_TABLE, ARG, NOT_TERMINAL, NOT_FOUND where the position holds no record of that terminal
reference, and BUSY from PULSE on; in AUTHORIZED and ADMIT it cancels the fill and frees its record (R175).  That the
NO_TABLE check is that of the ACTIVE SITE slot alone is the model's choice (notes/assumptions/49.md). -/
def Obligations.CancelFreesTheSale : Prop :=
  ∀ (h : Header) (pos : Word) (ref : BitVec 32) (s : State), s.Takes h →
    let refused := fun res => exec (.cancel h pos ref) s = .next (s.answerPay h 2 pos ref res false none)
    (s.site = none → refused .noTable) ∧
    (s.site.isSome = true →
      (5 < pos.toNat → refused .arg) ∧
      ∀ (p : Pos) (site : PosSite), pos.toNat = p.val → s.posSite p = some site →
        (site.terminal = 0 ∨ site.terminal ≠ h.src.toNat → refused .notTerminal) ∧
        (site.terminal ≠ 0 → site.terminal = h.src.toNat →
          ((∀ r, s.saleOf p = some r → r.reference ≠ ref) → refused .notFound) ∧
          ∀ r, s.saleOf p = some r → r.reference = ref →
            ((s.seq p).state ≠ .authorized → (s.seq p).state ≠ .admitting → refused .busy) ∧
            ((s.seq p).state = .authorized ∨ (s.seq p).state = .admitting →
              ∃ u : State, exec (.cancel h pos ref) s = .next (u.answerPay h 2 pos ref .ok false none).settle ∧
                ((s.seq p).state = .authorized ∨ s.nozzleIs p 0 = true → (u.seq p).state = .idle) ∧
                ((s.seq p).state = .admitting → s.nozzleIs p 0 = false → (u.seq p).state = .done) ∧
                (u.seq p).sale = none ∧ u.draw p = Draw.empty ∧ u.cool.allocOf (.position p) = none ∧
                (∀ i, s.recordSlot p = some i → u.logAt i = none) ∧ (∀ q, q ≠ p → u.seq q = s.seq q) ∧
                ((u.answerPay h 2 pos ref .ok false none).settle.seq p).state.beforeVent = false)))

/-- A delta counted in an OPEN interval is added to the gross mass of the position's OPEN record, saturated and marked at
16,777,215 g, and below the preset threshold nothing else follows from it.  A settled record bills no more than its net
mass: net is gross less vent, not below 0, and billed and overrun together are net; a FLEET sale bills no more than its
reservation (R88, R170, R178).  The closure of a position's record bills it by steps 2 to 6 of R178, as State.Bills says: the
net mass, or the lesser of it and the effective preset of an AMOUNT sale or the reservation of a FLEET one, at the record's
unit price with the rounding of its TARIFF; the record joins the closure list, and a FLEET contract is charged.  That a vent
mass stored at VENT entry is used at every closure is the model's reading (notes/assumptions/39.md). -/
def Obligations.MassIsCountedAndBilledOnce : Prop :=
  (∀ (p : Pos) (delta creep i n : Nat) (r : SaleRecord) (s : State),
    (s.sales.intake.get p).interval = .gasOpen → s.counting p = true → s.recordSlot p = some i →
    s.logAt i = some r → (s.seq p).threshold = some n → r.gross + delta < n →
    (s.classifyDelta p delta creep).logAt i =
        some { r with gross := min (r.gross + delta) 16777215,
                      marks := { r.marks with clamped := r.marks.clamped || decide (16777215 < r.gross + delta) } } ∧
      (∀ j, j ≠ i → (s.classifyDelta p delta creep).logAt j = s.logAt j) ∧
      (s.classifyDelta p delta creep).seqs = s.seqs ∧ (s.classifyDelta p delta creep).ring = s.ring ∧
      (s.classifyDelta p delta creep).events = s.events) ∧
  (∀ (p : Pos) (i : Nat) (r : SaleRecord) (reason : EndReason) (cond : Option Condition) (s : State),
    s.recordSlot p = some i → s.logAt i = some r →
    let u := s.closeRecord p reason cond
    ∃ q, u.logAt i = some q ∧ q.state = .closed ∧ q.reason = some reason ∧
      (r.vent = none → s.Bills r q (s.ventNow r)) ∧ (∀ v, r.vent = some v → s.Bills r q v) ∧
      u.sales.closure = s.sales.closure ++ [i] ∧ (∀ j, j ≠ i → u.logAt j = s.logAt j) ∧
      (∀ id c, r.contract = some id → s.contract id = some c →
        u.contract id = some
          { c with remaining := c.remaining - q.billed, reserved := c.reserved - r.reservation.getD 0,
                   salesToday := c.salesToday + 1 })) ∧
  ∀ (r : SaleRecord) (vent : VentMass) (half : Bool) (reason : EndReason) (cond : Option Condition)
      (cat : Option Category) (finish : Option Stamp),
    let q := r.settle vent half reason cond cat finish
    q.state = .closed ∧ q.gross = r.gross ∧ q.net = r.gross - vent.grams ∧ q.billed + q.overrun = q.net ∧
      (∀ n, r.card = .fleet → r.reservation = some n → q.billed ≤ n) ∧ q.amount ≤ 99999999 ∧
      (r.marks.meterSuspect = true → q.marks.meterSuspect = true)

/-! ## The clock -/

/-- A BEACON from the supervisor with a minute and a millisecond in their ranges sets the clock and makes the time valid;
any other leaves the clock as it is.  A day above the contract day renews every contract's allowance to the greater of
its quota and its reserved mass; no other day does (R183, R198). -/
def Obligations.BeaconSetsTheClock : Prop :=
  ∀ (h : Header) (day minute milli : Word) (s b : State),
    s.Consumes h ∧ b = s ∨ s.Copies h ∧ h.dst = 255 ∧ b = s.forwarded (beaconFrame h day minute milli) →
    (s.notSupervisor h = true ∨ 1440 ≤ minute.toNat ∨ 60000 ≤ milli.toNat →
      exec (.beacon h day minute milli) s = .next b) ∧
    (s.notSupervisor h = false → minute.toNat < 1440 → milli.toNat < 60000 →
      ∃ t : State, exec (.beacon h day minute milli) s = .next t ∧
        t.time = ⟨s.time.count, true, minute.toNat, day.toNat, s.time.count - BitVec.ofNat 32 milli.toNat, 0⟩ ∧
        (s.sales.contractDay < day.toNat →
          t.sales.contractDay = day.toNat ∧
          t.sales.contracts =
            s.sales.contracts.map fun c => { c with remaining := max c.quota c.reserved, salesToday := 0 }) ∧
        (day.toNat ≤ s.sales.contractDay →
          t.sales.contractDay = s.sales.contractDay ∧ t.sales.contracts = s.sales.contracts) ∧
        t = { b with time := t.time,
                     sales := { s.sales with contractDay := t.sales.contractDay, contracts := t.sales.contracts } })

/-- While the time is valid the clock advances at the end of each minute: the mark moves by 60,000 ms, the day passes
after minute 1439 and takes a roll-over with it, and the time stops being valid when the beacon limit in force is
reached (R183, R197).  That the counter then stands at the end of the minute, where it had not passed it, is the model's
reading (notes/assumptions/4.md). -/
def Obligations.MinuteAdvancesTheClock : Prop :=
  ∀ s : State, s.quiescent → s.time.valid = true →
    let day := if 1439 ≤ s.time.minute then (s.time.day + 1) % 65536 else s.time.day
    let since := min (s.time.sinceBeacon + 1) 1440
    let limit := (s.station.map StationSite.beaconLimit).getD 0
    ∃ t : State, exec .minuteAdvance s = .next t ∧
      t.time.count = (s.arriveAt (s.time.mark + 60000)).time.count ∧ t.time.mark = s.time.mark + 60000 ∧
      t.time.minute = (if 1439 ≤ s.time.minute then 0 else s.time.minute + 1) ∧ t.time.day = day ∧
      t.time.sinceBeacon = since ∧ (t.time.valid = true ↔ limit = 0 ∨ since < limit) ∧
      (1439 ≤ s.time.minute → s.sales.contractDay < day →
        t.sales.contractDay = day ∧
        t.sales.contracts =
          s.sales.contracts.map fun c => { c with remaining := max c.quota c.reserved, salesToday := 0 }) ∧
      (s.time.minute < 1439 ∨ day ≤ s.sales.contractDay →
        t.sales.contractDay = s.sales.contractDay ∧ t.sales.contracts = s.sales.contracts) ∧
      t = { s with time := t.time,
                   sales := { s.sales with contractDay := t.sales.contractDay, contracts := t.sales.contracts } }

/-! ## Timers -/

/-- The expiry of an actuator point's refresh deadline sends its effective value again and restarts the deadline.  The
expiry of a discrepancy deadline makes the point DISCREPANT: at a position it raises VALVE_DISCREPANCY, and at a
compressor it is a fault (R28, R30, R148).  That the counter then stands at the deadline (notes/assumptions/4.md) and that
an unaddressed part restarts the refresh deadline without a frame (notes/assumptions/23.md) are the model's readings.  A
reading of the feedback point makes the actuator that names it MATCHED where it matches the effective value, within 50 ‰ for a
proportional one, with its deadline removed; one that fails makes a MATCHED point SETTLING with a new deadline and changes no
other match state; and the last bank valve of a position to be MATCHED ends its SWITCH (R29, R30, R90). -/
def Obligations.ActuatorDeadlinesAct : Prop :=
  (∀ (i : Fin 192) (e : PointEntry) (r : ActRecord) (s : State), s.quiescent → s.entry i.val = some e →
    s.act i.val = some r →
    (∃ t : State, exec (.refreshDeadlineExpiry i) s = .next t ∧
      t.act i.val =
        some { r with refresh := (s.arriveAt r.refresh).time.count + BitVec.ofNat 32 e.refresh } ∧
      (s.addressed = true →
        .point ⟨i.val, BitVec.ofNat 8 e.node, e.channel, r.effective⟩ ∈ t.ring.commands ∨
          t.ring.sending = some (.command ⟨i.val, BitVec.ofNat 8 e.node, e.channel, r.effective⟩)) ∧
      (∀ j, j ≠ i.val → t.record j = s.record j) ∧
      t = { s.arriveAt r.refresh with ring := t.ring, points := { s.points with records := t.points.records } }) ∧
    ∀ d, r.discrepancy = some d → s.events.flags.length = 46 →
      (∀ p, e.scope = .position p →
        ∃ t : State, exec (.discrepancyDeadlineExpiry i) s = .next t ∧ (t.flag .condition (.position p)).isSome = true ∧
          (s.selectReaction p .valveDiscrepancy = .note →
            t.act i.val = some { r with matching := .discrepant, discrepancy := none } ∧
            (∀ q, t.seq q = s.seq q) ∧ ∀ j, j ≠ i.val → t.record j = s.record j) ∧
          (s.selectReaction p .valveDiscrepancy = .halt → (s.seq p).state ≠ .outOfService →
            (t.seq p).state = .halted) ∧
          t.time = (s.arriveAt d).time) ∧
      (∀ c, e.scope = .compressor c → (s.comp c).state ≠ .disabled → (s.comp c).state ≠ .faulted →
        ∃ t : State, exec (.discrepancyDeadlineExpiry i) s = .next t ∧ (t.comp c).state = .faulted ∧
          (t.comp c).lastFault = some .valveDiscrepancy ∧
          (t.flag .compressorFault (.compressor c)).isSome = true ∧ t.time = (s.arriveAt d).time)) ∧
  ∀ (h : Header) (q : Reading) (s b : State) (i j : Nat) (e d : PointEntry) (old : LiveRecord) (r : ActRecord),
    s.Reads h q b i e old → e.fn = .valveFb → j < 192 → s.entry j = some d → s.act j = some r → d.feedback = some i →
    (∀ k f, k < 192 → s.entry k = some f → f.feedback = some i → k = j) →
    ∃ (t : State) (v : LiveRecord) (m : ActRecord), exec (.sample h [q]) s = .next t ∧ t.live i = some v ∧
      t.act j = some m ∧
      let fits : Bool := v.isValid &&
        (if d.prop then decide ((v.value - r.effective).natAbs ≤ 50) else decide (v.value = r.effective))
      (fits = false →
        m = (if r.matching = .matched then
            { r with matching := .settling, discrepancy := some (s.time.count + BitVec.ofNat 32 d.discTime) } else r) ∧
        t = { b with points := t.points }) ∧
      (fits = true → r.matching = .matched → m = r ∧ t = { b with points := t.points }) ∧
      (fits = true → r.matching ≠ .matched →
        (m.effective = r.effective → m.matching = .matched ∧ m.discrepancy = none) ∧
        ∀ p, d.fn = .bankValve → d.scope = .position p → (s.seq p).state = .switch →
          (∀ k f a, k < 192 → k ≠ j → s.entry k = some f → f.fn = .bankValve → f.scope = .position p →
            s.act k = some a → a.matching = .matched) →
          (t.seq p).state ≠ .switch)

/-- The expiry of the couple timer frees the record, takes the position to IDLE and sets AUTH_EXPIRED.  The expiry of the
hold-limit timer cancels a fill in ADMIT, freeing its record, and ENDs one in SWITCH or HOLD with HOLD_EXPIRED
(R76, R78, R81, R92, R93).  That the counter then stands at the deadline is the model's reading (notes/assumptions/4.md).
The nozzle ends the waiting too, where the reading raises no level of R12 and before any hand-over is taken.  A valid COUPLED
takes AUTHORIZED on: to ADMIT with its record where some bank suits it and it holds no allocation yet, and to DONE with the
record freed where none does (R76, R78, R79, R128); any other value leaves AUTHORIZED.  Any other value takes ADMIT back to
AUTHORIZED with a new couple timer and the record kept, and COUPLED leaves ADMIT (R81).  Whatever is raised, COUPLED ends
AUTHORIZED and any other value ADMIT; and one that ends a valid COUPLED from PULSE to VENT raises UNCOUPLED, in a CONDITION
event (R96). -/
def Obligations.WaitingEndsAtItsLimit : Prop :=
  (∀ (p : Fin 6) (d : Count) (s : State), s.quiescent →
    ((s.seq p).couple = some d → (s.seq p).state = .authorized → s.events.flags.length = 46 →
      ∃ t : State, exec (.coupleTimerExpiry p) s = .next t ∧ (t.seq p).state = .idle ∧
        (∀ i, s.recordSlot p = some i → t.logAt i = none) ∧ (t.flag .authExpired (.position p)).isSome = true ∧
        t.time = (s.arriveAt d).time ∧ t.reactions = s.reactions) ∧
    ((s.seq p).holdLimit = some d → (s.seq p).state = .admitting →
      ∃ t : State, exec (.holdLimitExpiry p) s = .next t ∧ (t.seq p).state.beforeVent = false ∧
        (s.nozzleIs p 0 = true → (t.seq p).state = .idle) ∧ (∀ i, s.recordSlot p = some i → t.logAt i = none) ∧
        t.time = (s.arriveAt d).time ∧ t.reactions = s.reactions) ∧
    ((s.seq p).holdLimit = some d → (s.seq p).state = .switch ∨ (s.seq p).state = .hold →
      ∃ u : State, exec (.holdLimitExpiry p) s = .next u.settle ∧
        ((s.combined p).valid = false ∨ ((s.header p).ventDone : Int) ≤ (s.combined p).num →
          (u.seq p).state = .vent ∧ (u.seq p).endReason = some .holdExpired) ∧
        ((s.combined p).valid = true → (s.combined p).num < (s.header p).ventDone →
          (u.seq p).state = .done ∨ (u.seq p).state = .idle) ∧
        u.cool.allocOf (.position p) = none ∧ u.draw p = Draw.empty ∧ (∀ q, q ≠ p → u.seq q = s.seq q) ∧
        (u.settle.seq p).state.beforeVent = false ∧ u.time = (s.arriveAt d).time)) ∧
  ∀ (h : Header) (x : Reading) (s b : State) (i : Nat) (e : PointEntry) (old : LiveRecord) (p : Pos),
    s.Reads h x b i e old → e.fn = .nozzle → e.scope = .position p → s.findPoint .nozzle (.position p) = some i →
    ∃ (u t : State) (v : LiveRecord), exec (.sample h [x]) s = .next t ∧ t = u.settle ∧ t.live i = some v ∧
      let is : Bool := v.isValid && v.value == 2
      ((s.seq p).state = .authorized → s.Calm t p →
        (is = true → s.Supplied p → s.cool.allocOf (.position p) = none →
          (u.seq p).state = .admitting ∧ (u.seq p).couple = none ∧
            (u.seq p).holdLimit = some (s.time.count + BitVec.ofNat 32 (s.header p).holdLimit) ∧
            (u.seq p).sale = (s.seq p).sale ∧ (u.seq p).link = some LinkState.start ∧
            (u.draw p).claim.isSome = !(u.draw p).wait.isSome ∧ u.sales.log = s.sales.log) ∧
        (is = true → ¬s.Supplied p →
          (u.seq p).state = .done ∧ u.draw p = Draw.empty ∧ ∀ j, s.recordSlot p = some j → u.logAt j = none) ∧
        (is = false → (t.seq p).state = .authorized ∧ (t.seq p).couple = (s.seq p).couple ∧
          (t.seq p).sale = (s.seq p).sale ∧ t.sales = s.sales ∧ t.draws = s.draws ∧ t.cool = s.cool)) ∧
      ((s.seq p).state = .admitting → s.Calm t p →
        (is = false →
          (u.seq p).state = .authorized ∧
            (u.seq p).couple = some (s.time.count + BitVec.ofNat 32 (s.header p).couple) ∧ (u.seq p).holdLimit = none ∧
            (u.seq p).sale = (s.seq p).sale ∧ u.draw p = Draw.empty ∧ u.cool.allocOf (.position p) = none ∧
            (∀ q ∈ u.cool.queue, q.holder ≠ .position p) ∧ u.sales = s.sales) ∧
        (is = true → (t.seq p).state = .admitting ∧ (t.seq p).holdLimit = (s.seq p).holdLimit ∧
          (t.seq p).sale = (s.seq p).sale ∧ t.sales = s.sales ∧ t.draws = s.draws ∧ t.cool = s.cool)) ∧
      ((s.seq p).state = .authorized →
        (is = true → (t.seq p).state ≠ .authorized ∧
          ((t.seq p).state = .admitting →
            (t.seq p).couple = none ∧
            (t.seq p).holdLimit = some (s.time.count + BitVec.ofNat 32 (s.header p).holdLimit) ∧
            (t.seq p).sale = (s.seq p).sale ∧ (t.seq p).link = some LinkState.start)) ∧
        (is = false → (t.seq p).state ≠ .admitting)) ∧
      ((s.seq p).state = .admitting → is = false →
        (t.seq p).state ≠ .admitting ∧
        ((t.seq p).state = .authorized →
          (t.seq p).couple = some (s.time.count + BitVec.ofNat 32 (s.header p).couple) ∧ (t.seq p).holdLimit = none ∧
          (t.seq p).sale = (s.seq p).sale ∧ t.draw p = Draw.empty ∧ t.cool.allocOf (.position p) = none)) ∧
      ((s.seq p).state.metered = true → old.isValid = true → old.value = 2 → is = false → s.events.flags.length = 46 →
        (t.flag .condition (.position p)).isSome = true)

/-- At the end of the pulse's open phase the fill valve is written 0, the combined outlet pressure is kept and the
settle phase begins; nothing else of any position changes (R82).  That the counter, from which the settle time runs,
then stands at the deadline is the model's reading (notes/assumptions/4.md).

PULSE is entered when both grants are held.  A position in ADMIT with its draw port that is granted cooling, the head of
the queue served for a changed capacity or band (R158, R159), takes the granted category and the present band and stops
its hold-limit timer; its record is OPEN with gross mass 0, the pulse begins with its opening and open time, and the
chiller setpoint follows, as State.Pulses says (R80, R82, R165, R177).  A stored HALT has it HOLD for VEHICLE in the
same event, to resume with a PULSE (R122).  A meter that cannot count marks the record METER_SUSPECT and raises
METER_FAULT (R171), and a level condition that is carried in is raised (R104): each reaction is applied, a HOLD of the
level with the cause CONDITION.  The same where a freed draw port is granted last.  Three things are the model's:
METER_FAULT comes before a stored HALT (notes/assumptions/40.md), on an idle ring-out the COMMAND with the pulse opening
is under transmission before that HALT writes 0 (56.md), and the two pressures of an earlier pulse are absent, of which
nothing is stated (46.md). -/
def Obligations.PulseEntryAndOpenPhase : Prop :=
  (∀ (p : Fin 6) (d : Count) (s : State), s.quiescent → (s.seq p).pulse = some d → (s.seq p).phase = .opening →
    ∃ t : State, exec (.pulseOpenEnd p) s = .next t ∧
      t.seq p = { s.seq p with
        settleP := some (s.combined p), phase := .settling,
        pulse := some ((s.arriveAt d).time.count + BitVec.ofNat 32 (s.header p).pulseSettle) } ∧
      (∀ i r, s.findPoint .fillValve (.position p) = some i → s.act i = some r →
        ∃ q : ActRecord, t.act i = some q ∧ q.auto = 0 ∧ (r.owner = .auto → q.effective = 0) ∧
          (r.owner ≠ .auto → q.effective = r.effective)) ∧
      (∀ j, s.findPoint .fillValve (.position p) ≠ some j → t.record j = s.record j) ∧
      (∀ q, q ≠ p → t.seq q = s.seq q) ∧ t.tables = s.tables ∧ t.sales.log = s.sales.log ∧ t.cool = s.cool ∧
      t.sched = s.sched ∧ t.banks = s.banks ∧ t.draws = s.draws ∧ t.events = s.events ∧
      t.time = (s.arriveAt d).time) ∧
  (∀ (h : Header) (x : Reading) (s b : State) (i : Nat) (e : PointEntry) (old : LiveRecord) (k : StationSite) (p : Pos)
      (c : DispClass) (a : Category),
    s.Reads h x b i e old → e.scope = .station → e.fn = .ambient ∨ e.fn = .chillerRun ∨ e.fn = .chillerSupplyT →
    s.station = some k → s.cool.queue = [.position p c none] → s.cool.allocOf (.position p) = none →
    (s.cool.monitors.get p).level = false → (s.seq p).state = .admitting → (s.draw p).claim.isSome = true →
    ∃ t : State, exec (.sample h [x]) s = .next t ∧
      let demand := fun d => (s.combinationAt p t.cool.band.val d).demand
      let fits := fun d =>
        (s.combinationAt p t.cool.band.val d).aprr ≠ 0 ∧ s.cool.heldSum + demand d ≤ t.cool.capacity
      let meter := s.reactionOf .meterFault .flowing
      let counted := s.MeterReady p ∨ meter = .note ∨ meter = .hold
      let fresh := ∀ d, ¬s.Carries p d
      (t.cool.capacity ≠ s.cool.capacity ∨ t.cool.band ≠ s.cool.band) → s.cool.heldSum ≤ t.cool.capacity → fits a →
      (∀ d, d.index < a.index → ¬fits d) →
        (fresh → counted →
          t.cool.queue = [] ∧ t.cool.stamps = s.cool.stamps + 1 ∧
          t.cool.table = s.cool.table ++
            [⟨.position p, demand a, s.cool.stamps + 1, some ⟨c, t.cool.band, a, 0⟩, false⟩] ∧
          t.cool.monitors.get p = ⟨none, none, .none, false⟩ ∧ t.SetpointStands ∧ (∀ q, q ≠ p → t.seq q = s.seq q) ∧
          t.draws = s.draws ∧ t.sched = s.sched ∧
          (¬s.VehicleWaits p → s.Pulses t p a t.cool.band) ∧
          (s.VehicleWaits p →
            t.seq p =
              { s.seq p with
                state := .hold, holdLimit := some (s.time.count + BitVec.ofNat 32 (s.header p).holdLimit),
                category := some a, band := some t.cool.band, causes := ⟨true, false, false, false⟩,
                resume := some .pulse, window := [], pulse := none, phase := .opening, settleP := (t.seq p).settleP,
                initialP := (t.seq p).initialP } ∧
            s.RecordOpened t p a ∧ s.FillWritten t p 0)) ∧
        (fresh → ¬s.MeterReady p →
          (s.events.flags.length = 46 →
            (t.flag .condition (.position p)).map Flag.detail = some (.raise .meterFault .meterNotReady meter)) ∧
          (∀ j r, s.recordSlot p = some j → s.logAt j = some r →
            ∃ q, t.logAt j = some q ∧ q.number = r.number ∧ q.marks.meterSuspect = true) ∧
          (meter = .finish → (t.seq p).state.beforeVent = false) ∧
          (meter = .halt ∨ meter = .trip → (t.seq p).state = .halted)) ∧
        ∀ l, s.Carries p l → (∀ d, s.Carries p d → d = l) → s.MeterReady p → ¬s.VehicleWaits p →
          let reaction := s.reactionOf l .flowing
          (s.events.flags.length = 46 →
            ∃ d, (t.flag .condition (.position p)).map Flag.detail = some (.raise l d reaction)) ∧
          (reaction = .note →
            (t.seq p).state = .pulse ∧ (t.seq p).category = some a ∧ (t.seq p).band = some t.cool.band ∧
            (t.seq p).causes = HoldCauses.empty ∧ (t.seq p).raised = (s.seq p).raised.put l true ∧
            s.RecordOpened t p a ∧ s.FillWritten t p (s.header p).pulseOpening) ∧
          (reaction = .hold →
            (t.seq p).state = .hold ∧ (t.seq p).causes = ⟨false, false, false, true⟩ ∧
            (t.seq p).holdSet = (s.seq p).holdSet.put l true ∧ (t.seq p).raised = (s.seq p).raised.put l true ∧
            (t.seq p).resume = some .pulse ∧
            (t.seq p).holdLimit = some (s.time.count + BitVec.ofNat 32 (s.header p).holdLimit) ∧
            s.RecordOpened t p a ∧ s.FillWritten t p 0) ∧
          (reaction = .finish → (t.seq p).state.beforeVent = false) ∧
          (reaction = .halt ∨ reaction = .trip → (t.seq p).state = .halted)) ∧
  ∀ (b : Bank) (p : Pos) (l : List Pos) (a : Alloc) (f : PosAlloc) (s : State),
    (s.bank b).queue = p :: l → s.hasPort b = true → s.suits p b (s.reference p) = true → (s.seq p).state = .admitting →
    s.cool.allocOf (.position p) = some a → a.fill = some f → (∀ d, ¬s.Carries p d) → s.MeterReady p →
    ¬s.VehicleWaits p →
    s.Pulses (s.portRound b) p f.category f.band ∧ ((s.portRound b).draw p).claim = some b ∧
      ((s.portRound b).bank b).queue = l ∧ (s.portRound b).SetpointStands ∧ ∀ q, q ≠ p → (s.portRound b).seq q = s.seq q

/-- At the end of settle the checks are taken in order: an INVALID pressure ENDs the fill with NO_PRESSURE; a fall above
the leak limit raises LEAK; a pressure below the minimum initial pressure ENDs it with INITIAL_PRESSURE, and one at or
above the end target with FULL; otherwise, on a bank that suits, RAMP is entered with that pressure as base and the
pulse opening (R83, R84).  That the counter, which is the ramp mark, then stands at the deadline is the model's reading
(notes/assumptions/4.md); RAMP starts the category settle timer and keeps the fill valve at the pulse opening (R84,
R163).

In RAMP each outlet pressure is evaluated: target and band are computed for the present ramp time and stored, and a
valid pressure at or above the end target ENDs the fill (R86), unless the same reading has first raised a level
condition whose reaction is HOLD, which then stands as the cause CONDITION (R9, R91, R111).  A reading that raises
nothing itself goes on to the steps after that.  From the ramp start delay on, a valid pressure enters its outcome in
the window, of the last eight, and at N of them OUT, CONFORMANCE_LOSS is raised with the count and the window cleared
(R87).  Then the claimed bank is tested: where it still suits, the valve step of R50 and R51 is made and written as the
AUTO value of the fill valve; where it does not, a new claim takes the fill to SWITCH, and back to RAMP with a re-base
where every bank valve is MATCHED at once, a wait to HOLD for BANK, and exhaustion ENDs it with SUPPLY_EXHAUSTED (R90,
R91, R132).  At an INVALID pressure the opening is held and written unchanged, and nothing else is done. -/
def Obligations.PulseSettleDecides : Prop :=
  (∀ (p : Fin 6) (d : Count) (s : State), s.quiescent → (s.seq p).state = .pulse → (s.seq p).pulse = some d →
    (s.seq p).phase = .settling →
    let v := s.combined p
    let ends := fun reason =>
      ∃ u : State, exec (.pulseSettleEnd p) s = .next u.settle ∧
        (v.valid = false ∨ ((s.header p).ventDone : Int) ≤ v.num →
          (u.seq p).state = .vent ∧ (u.seq p).endReason = some reason ∧ (u.seq p).initialP = some v) ∧
        (u.settle.seq p).state.beforeVent = false ∧ u.time = (s.arriveAt d).time
    let noLeak := ∀ x, (s.seq p).settleP = some x → x.valid = true → x.num - v.num ≤ (s.header p).leakLimit
    (v.valid = false → ends .noPressure) ∧
    (v.valid = true →
      (∀ x, (s.seq p).settleP = some x → x.valid = true → ((s.header p).leakLimit : Int) < x.num - v.num →
        s.events.flags.length = 46 →
        ∃ t : State, exec (.pulseSettleEnd p) s = .next t ∧ (t.flag .condition (.position p)).isSome = true ∧
          (s.reactionOf .leak .flowing = .halt → (t.seq p).state = .halted)) ∧
      (noLeak → v.num < (s.header p).minInitial → ends .initialPressure) ∧
      (noLeak → ((s.header p).minInitial : Int) ≤ v.num →
        ((s.endTarget p : Int) ≤ v.num → ends .full) ∧
        (v.num < (s.endTarget p : Int) → s.stillSuits p v.num = true →
          ∃ t : State, exec (.pulseSettleEnd p) s = .next t ∧ (t.seq p).state = .ramp ∧ (t.seq p).rampBase = some v ∧
            (t.seq p).rampMark = (s.arriveAt d).time.count ∧ (t.seq p).opening = (s.header p).pulseOpening ∧
            (t.seq p).window = [] ∧ (t.seq p).pulse = none ∧ (t.seq p).initialP = some v ∧
            (∀ l, (s.seq p).link = some l → l.mode = .pending →
              (t.seq p).link = some { l with mode := .nonCommunicated, cause := some .never }) ∧
            (t.cool.monitors.get p).settle =
              some ((s.arriveAt d).time.count + BitVec.ofNat 32 (s.header p).catSettle) ∧
            s.FillWritten t p (s.header p).pulseOpening ∧
            (∀ q, q ≠ p → t.seq q = s.seq q) ∧ t.draws = s.draws ∧ t.sales.log = s.sales.log)))) ∧
  ∀ (h : Header) (x : Reading) (s b : State) (i : Nat) (e : PointEntry) (old : LiveRecord) (p : Pos),
    s.Reads h x b i e old → e.fn = .outletPA ∨ e.fn = .outletPB → e.scope = .position p → (s.seq p).state = .ramp →
    ∃ u t : State, exec (.sample h [x]) s = .next t ∧ t = u.settle ∧
      ((t.combined p).valid = true → (s.endTarget p : Int) ≤ (t.combined p).num → (t.seq p).state.beforeVent = false ∨
        (t.seq p).state = .hold) ∧
      ((t.combined p).valid = true → (s.endTarget p : Int) ≤ (t.combined p).num → (t.seq p).state = .hold →
        (t.seq p).causes.condition = true ∧
        ∃ c ∈ [Condition.sensorStale, .sensorDisagree, .overpressure],
          s.reactionOf c .flowing = .hold ∧ (t.seq p).holdSet.has c = true ∧ (t.seq p).raised.has c = true ∧
          (t.seq p).active.has c = true ∧
          ((s.seq p).active.has c = false ∨
            (c = .sensorStale ∧ old.watch = some .armed ∧ (t.live i).bind LiveRecord.watch = some .disarmed))) ∧
      ((t.combined p).valid = true → (s.endTarget p : Int) ≤ (t.combined p).num → (t.seq p).state = .vent →
        (t.seq p).endReason = some .full ∨ (t.seq p).endReason = some .condition) ∧
      ∀ base, (s.seq p).rampBase = some base →
        let k := s.combination p
        let hd := s.header p
        let aim := rampBand (rampTarget base k.aprr (s.rampTime p) (s.endTarget p)) k.tolAbove k.tolBelow hd.maxLimit
        let v := t.combined p
        let limit := some (s.time.count + BitVec.ofNat 32 hd.holdLimit)
        ((t.seq p).state = .ramp → (t.seq p).target = some aim) ∧
        (s.Calm t p → (old.watch = some .armed → (t.live i).bind LiveRecord.watch ≠ some .disarmed) →
          (v.valid = false → (s.seq p).overTest ≠ .within → (s.seq p).overTest ≠ .beyond →
            (t.seq p).state = .ramp ∧ (t.seq p).window = (s.seq p).window ∧ (t.seq p).opening = (s.seq p).opening ∧
              s.FillWritten t p (s.seq p).opening) ∧
          (v.valid = true → v.num < (s.endTarget p : Int) →
            v.num ≤ (hd.maxLimit : Int) ∨ (s.seq p).active.overpressure = true →
            let window := (s.seq p).window
            let outcome : Conformance := if aim.inBand v.num then .inBand else .outOfBand
            let w := (window ++ [outcome]).drop (window.length - 7)
            let outs := w.countP fun o => o == .outOfBand
            let due := hd.rampDelay ≤ s.rampTime p
            let lost := due ∧ hd.conformanceN ≤ outs
            let reaction := s.reactionOf .conformanceLoss .flowing
            (lost →
              (s.events.flags.length = 46 →
                (t.flag .condition (.position p)).map Flag.detail =
                  some (.raise .conformanceLoss (.count outs) reaction)) ∧
              (reaction = .finish → (t.seq p).state.beforeVent = false) ∧
              (reaction = .halt ∨ reaction = .trip → (t.seq p).state = .halted)) ∧
            (¬lost ∨ reaction = .note ∨ reaction = .hold →
              (s.stillSuits p v.num = true →
                let o := valveStep aim.target.num v (s.seq p).opening hd.gain hd.maxStep hd.openLimit
                (t.seq p).state = .ramp ∧ (t.seq p).window = (if lost then [] else if due then w else window) ∧
                  (t.seq p).opening = o.opening ∧ (t.seq p).evaluation = some o ∧ s.FillWritten t p o.opening ∧
                  t.draws = s.draws) ∧
              (s.stillSuits p v.num = false →
                let choice := s.choose p ((s.draw p).index.getD 0 + 1) v.num
                (∀ c j, choice = .claim c j →
                  u.draw p = ⟨some c, none, some j⟩ ∧ (u.bank c).drawers.get p = true ∧
                  (u.bankValvesMatched p = false →
                    (u.seq p).state = .switch ∧ (u.seq p).resume = some .ramp ∧ (u.seq p).holdLimit = limit ∧
                      s.FillWritten u p 0) ∧
                  (u.bankValvesMatched p = true → (s.seq p).causes = HoldCauses.empty →
                    (u.seq p).state = .ramp ∧ (u.seq p).rampBase = some aim.target ∧ (u.seq p).rampMark = s.time.count ∧
                      (u.seq p).window = [] ∧ (u.seq p).holdLimit = none ∧ s.FillWritten u p (s.seq p).opening)) ∧
                (∀ c j, choice = .wait c j →
                  u.draw p = ⟨none, some c, some j⟩ ∧ (∃ l, (u.bank c).queue = l ++ [p]) ∧ (u.seq p).state = .hold ∧
                    (u.seq p).causes.bank = true ∧ (u.seq p).resume = some .ramp ∧ (u.seq p).holdLimit = limit) ∧
                (choice = .exhausted →
                  u.draw p = Draw.empty ∧ (t.seq p).state.beforeVent = false ∧
                    ((hd.ventDone : Int) ≤ v.num →
                      (u.seq p).state = .vent ∧ (u.seq p).endReason = some .supplyExhausted))))))

/-- The expiry of the vent timer raises VENT_TIMEOUT; where its reaction is NOTE the record is closed with the recorded
reason and the position enters DONE, or IDLE where the nozzle is holstered; where it is HALT the position is HALTED
(R94, R95, R110, R178).  That the counter then stands at the deadline is the model's reading (notes/assumptions/4.md).  A
valid outlet pressure below the vent done pressure ends VENT at once, with nothing raised the record closed with the recorded
reason; a pressure at or above it, or an INVALID one, does not.  The record is billed with the vent mass stored at VENT
entry. -/
def Obligations.VentTimeoutClosesTheSale : Prop :=
  (∀ (p : Fin 6) (d : Count) (s : State), s.quiescent → (s.seq p).state = .vent → (s.seq p).ventTimer = some d →
    s.events.flags.length = 46 →
    ∃ t : State, exec (.ventTimerExpiry p) s = .next t ∧ (t.flag .condition (.position p)).isSome = true ∧
      (t.seq p).state ≠ .vent ∧ t.time = (s.arriveAt d).time ∧
      (s.reactionOf .ventTimeout .postflow = .note →
        (t.seq p).state = (if s.nozzleIs p 0 then .idle else .done) ∧ (t.seq p).ventTimer = none ∧
        (∀ i r e, s.recordSlot p = some i → s.logAt i = some r → (s.seq p).endReason = some e →
          ∃ q : SaleRecord, t.logAt i = some q ∧ q.state = .closed ∧ q.reason = some e ∧ q.number = r.number ∧
            (∀ v, r.vent = some v → s.Bills r q v) ∧ i ∈ t.sales.closure ∧ (t.flag .saleClosed (.position p)).isSome = true) ∧
        (∀ q, q ≠ p → t.seq q = s.seq q)) ∧
      (s.reactionOf .ventTimeout .postflow = .halt → (t.seq p).state = .halted)) ∧
  ∀ (h : Header) (x : Reading) (s b : State) (i : Nat) (e : PointEntry) (old : LiveRecord) (p : Pos),
    s.Reads h x b i e old → e.fn = .outletPA ∨ e.fn = .outletPB → e.scope = .position p → (s.seq p).state = .vent →
    ∃ t : State, exec (.sample h [x]) s = .next t ∧
      let done := (t.combined p).valid = true ∧ (t.combined p).num < ((s.header p).ventDone : Int)
      (done →
        (t.seq p).state ≠ .vent ∧
        ∀ j r a, s.recordSlot p = some j → s.logAt j = some r → r.state = .opened → (s.seq p).endReason = some a →
          j ∈ t.sales.closure ∧ ∃ q : SaleRecord, t.logAt j = some q ∧ q.state = .closed ∧ q.number = r.number ∧
            ((t.seq p).state ≠ .halted → q.reason = some a ∧ ∀ v, r.vent = some v → s.Bills r q v)) ∧
      (¬done → (t.seq p).state = .vent ∨ (t.seq p).state = .halted)

/-- A compressor's start timer faults it with START_TIMEOUT; its run timer stops an UNLOADED run into LOCKOUT with
RUN_COMPLETE; its lockout timer takes it to STOPPED, and on to COOL_WAIT with a request where the start test holds
and no other compressor could start first (R142, R143, R146, R147, R148).  That the counter then stands at the deadline
(notes/assumptions/4.md) and that LOCKOUT stands also with a minimum off time of 0 (notes/assumptions/25.md) are the model's
readings.  A valid ON of the RUN_FB point ends STARTING: the compressor is RUNNING with its run mark at the present count,
unless its target has already ended; anything else than a valid ON is RUN_LOST in a run, and does nothing in STARTING
(R143, R144, R148). -/
def Obligations.CompressorTimersAct : Prop :=
  (∀ (c : Fin 2) (d : Count) (s : State), s.quiescent → (s.comp c).timer = some d →
    ((s.comp c).state = .starting → s.events.flags.length = 46 →
      ∃ t : State, exec (.startTimerExpiry c) s = .next t ∧ (t.comp c).state = .faulted ∧
        (t.comp c).lastFault = some .startTimeout ∧ (t.comp c).lastStop = some .fault ∧
        (t.flag .compressorFault (.compressor c)).isSome = true ∧ t.time = (s.arriveAt d).time) ∧
    ((s.comp c).state = .unloaded →
      ∃ t : State, exec (.runTimerExpiry c) s = .next t ∧ (t.comp c).state = .lockout ∧
        (t.comp c).lastStop = some .runComplete ∧ (t.comp c).lastFault = (s.comp c).lastFault ∧
        t.time = (s.arriveAt d).time) ∧
    ((s.comp c).state = .lockout →
      (s.startBlocked c = true →
        ∃ t : State, exec (.lockoutExpiry c) s = .next t ∧ (t.comp c).state = .stopped ∧ t.time = (s.arriveAt d).time) ∧
      (s.startBlocked c = false → s.sched.queue ≠ [] →
        (∀ k, k ≠ c →
          (s.comp k).state ≠ .stopped ∧ (s.comp k).state ≠ .coolWait ∧ (s.comp k).state ≠ .unloaded) →
        ∃ u : State, exec (.lockoutExpiry c) s = .next u.settle ∧ (u.comp c).state = .coolWait ∧ (u.comp c).timer = none ∧
          (∃ n m, CoolRequest.compressor c n m ∈ u.cool.queue) ∧ u.sched.queue = s.sched.queue ∧
          u.time = (s.arriveAt d).time))) ∧
  ∀ (h : Header) (x : Reading) (s b : State) (i : Nat) (e : PointEntry) (old : LiveRecord) (c : Comp),
    s.Reads h x b i e old → e.fn = .runFb → e.scope = .compressor c →
    ∃ (t : State) (v : LiveRecord), exec (.sample h [x]) s = .next t ∧ t.live i = some v ∧
      let on : Bool := v.isValid && v.value == 1
      let run := (s.comp c).state = .running ∨ (s.comp c).state = .switching ∨ (s.comp c).state = .unloaded
      ((s.comp c).state = .starting → on = true →
        (∀ k, (s.comp c).target = some k → (s.copy k).state = .available ∧
          ((s.copy k).pressure.valid = true → (s.copy k).pressure.num < ((s.bankSite k).ceiling : Int))) →
        t.comp c =
          { s.comp c with state := .running, runMark := s.time.count, timer := none, oldTarget := none }) ∧
      (run → on = false → s.events.flags.length = 46 →
        (t.comp c).state = .faulted ∧ (t.comp c).lastFault = some .runLost ∧ (t.comp c).lastStop = some .fault ∧
          (t.comp c).target = none ∧ (t.flag .compressorFault (.compressor c)).isSome = true) ∧
      (((s.comp c).state = .starting ∧ on = false) ∨ ((s.comp c).state ≠ .starting ∧ (run → on = true)) →
        t = { b with points := t.points })

/-- The category settle timer stops at its expiry.  At that of the grace timer a fill with a downgrade category is moved
to it with that category's demand; any other raises OUT_OF_CATEGORY (R161, R163, R164).  That the counter then stands at
the deadline is the model's reading (notes/assumptions/4.md).  A move restarts the settle timer of a fill in RAMP and
re-bases it, and the chiller setpoint follows, here and at a reclaim (State.Recategorised, State.SetpointStands; R163 to
R165).  An outlet temperature of a flowing fill is held to the limit of its category: WITHIN or SUBSTITUTED stops the
grace timer, WITHIN clears the level too, and BEYOND in RAMP starts the timer where neither it nor the settle timer runs
and the level is inactive (R163).  That the outcome is decided as the hand-over begins, and stored where a raise has
ended the fill too (28.md), and that a grace time of 0 expires in a later event (25.md), are the model's.

A reading of AMBIENT moves the band by the rising and falling counts; one of AMBIENT, CHILLER_RUN or CHILLER_SUPPLY_T
recomputes the capacity (R153, R154).  Where both stay nothing is served; that a change of the band alone is served is
the model's reading (29.md).  A capacity below the held sum is reclaimed in four steps, as State.Reclaimed says:
non-critical compressors, downgrades, critical compressors, positions, each the most recent stamp first, no more than
needed (R160 to R162); the held sum is within it at the end, and CAPACITY_REDUCED carries both sums.  Any other is
offered to the head of the queue, each grant with the next stamp; a head that cannot be granted keeps its place (R155,
R158, R159).  A position in ADMIT is granted the first category of the present band that fits, a compressor its demand,
a fill held for COOLING the first of its own category and the warmer ones of its own band: it goes on where no other
cause holds it, in RAMP with its settle timer started.  That it keeps its downgrade count is the model's choice (52.md). -/
def Obligations.OutletMonitorTimersAct : Prop :=
  (∀ (p : Fin 6) (d : Count) (s : State), s.quiescent →
    ((s.cool.monitors.get p).settle = some d →
      exec (.categorySettleExpiry p) s =
        .next ((s.arriveAt d).mapMonitor p fun m => { m with settle := none })) ∧
    ((s.cool.monitors.get p).grace = some d →
      (∀ a f k, s.cool.allocOf (.position p) = some a → a.fill = some f → s.downgradeCategory p a = some k →
        ∃ u : State, exec (.graceTimerExpiry p) s = .next u.settle ∧ (u.seq p).category = some k ∧
          u.cool.allocOf (.position p) =
            some { a with amount := (s.combinationAt p f.band.val k).demand,
                          fill := some { f with category := k, downgrades := f.downgrades + 1 } } ∧
          (s.arriveAt d).Recategorised u p k ∧ u.SetpointStands ∧ (∀ q, q ≠ p → u.seq q = s.seq q) ∧
          u.time = (s.arriveAt d).time) ∧
      ((s.cool.allocOf (.position p)).bind (s.downgradeCategory p) = none → s.events.flags.length = 46 →
        ∃ u : State, exec (.graceTimerExpiry p) s = .next u.settle ∧ (u.cool.monitors.get p).level = true ∧
          (u.seq p).active.outOfCategory = true ∧ (u.settle.flag .condition (.position p)).isSome = true ∧
          u.time = (s.arriveAt d).time))) ∧
  (∀ (h : Header) (x : Reading) (s b : State) (i : Nat) (e : PointEntry) (old : LiveRecord) (p : Pos) (g : Slot)
      (k : Category),
    s.Reads h x b i e old → e.fn = .outletT → e.scope = .position p → s.findPoint .outletT (.position p) = some i →
    (s.seq p).state.flowing = true → (s.seq p).category = some k → s.boundProtocol p = some g →
    ∃ (t : State) (v : LiveRecord), exec (.sample h [x]) s = .next t ∧ t.live i = some v ∧
      let m := s.cool.monitors.get p
      let n := t.cool.monitors.get p
      (v.isValid = false → n.last = .substituted ∧ n.grace = none) ∧
      (v.isValid = true → v.value ≤ g.categoryLimit k →
        n.last = .within ∧ n.grace = none ∧ n.level = false ∧
        (m.level = true → (t.seq p).active.outOfCategory = false)) ∧
      (v.isValid = true → g.categoryLimit k < v.value →
        n.last = .beyond ∧
        ((s.seq p).state = .ramp → (t.seq p).state = .ramp →
          n.grace = (if m.settle = none ∧ m.grace = none ∧ m.level = false
            then some (s.time.count + BitVec.ofNat 32 (s.header p).catGrace) else m.grace)))) ∧
  ∀ (h : Header) (x : Reading) (s b : State) (i : Nat) (e : PointEntry) (old : LiveRecord) (k : StationSite),
    s.Reads h x b i e old → e.scope = .station → e.fn = .ambient ∨ e.fn = .chillerRun ∨ e.fn = .chillerSupplyT →
    s.station = some k →
    ∃ t : State, exec (.sample h [x]) s = .next t ∧
      let able := ∃ r y, t.sensor .chillerRun .station = some r ∧ r.isValid = true ∧ r.value = 1 ∧
        t.sensor .chillerSupplyT .station = some y ∧ y.isValid = true ∧ y.value ≤ k.supplyLimit
      let free := t.cool.capacity - s.cool.heldSum
      let served := (t.cool.capacity ≠ s.cool.capacity ∨ t.cool.band ≠ s.cool.band) ∧ s.cool.heldSum ≤ t.cool.capacity
      let suits := fun p c => (s.combinationAt p t.cool.band.val c).aprr ≠ 0 ∧
        (s.combinationAt p t.cool.band.val c).demand ≤ free
      (e.fn ≠ .ambient → t.cool.band = s.cool.band) ∧
      (e.fn = .ambient →
        (s.protocol = none → t.cool.band = 5) ∧
        ∀ g v, s.protocol = some g → t.sensor .ambient .station = some v →
          let rising := g.bandEdges.countP fun a => a ≤ v.value
          let falling := g.bandEdges.countP fun a => a - 10 ≤ v.value
          (s.cool.band.val < rising → t.cool.band.val = rising) ∧
          (rising ≤ s.cool.band.val → falling < s.cool.band.val → t.cool.band.val = falling) ∧
          (rising ≤ s.cool.band.val → s.cool.band.val ≤ falling → t.cool.band = s.cool.band)) ∧
      (able → t.cool.capacity = k.capacities.getD t.cool.band.val 0) ∧ (¬able → t.cool.capacity = 0) ∧
      (t.cool.capacity = s.cool.capacity → t.cool.band = s.cool.band → s.cool.heldSum ≤ t.cool.capacity →
        t.cool = s.cool ∧ t.seqs = s.seqs ∧ t.sched = s.sched) ∧
      (t.cool.capacity < s.cool.heldSum → s.events.flags.length = 46 →
        t.cool.heldSum ≤ t.cool.capacity ∧
        ∃ n, n ≤ t.cool.capacity ∧ (t.flag .capacityReduced .station).map Flag.detail =
          some (.capacity t.cool.capacity s.cool.heldSum n)) ∧
      (t.cool.capacity < s.cool.heldSum → s.cool.Orderly →
        ∃ u : State, t = u.settle ∧ u.cool.capacity = t.cool.capacity ∧ s.Reclaimed u) ∧
      (served → s.cool.queue = [] → t.cool = { s.cool with band := t.cool.band, capacity := t.cool.capacity }) ∧
      (∀ p c l, served → s.cool.queue = .position p c none :: l → (∀ a, ¬suits p a) →
        t.cool = { s.cool with band := t.cool.band, capacity := t.cool.capacity }) ∧
      (∀ p c a, served → s.cool.queue = [.position p c none] → suits p a →
        (∀ d, d.index < a.index → ¬suits p d) → (s.seq p).state = .admitting → (s.draw p).claim = none →
        s.cool.allocOf (.position p) = none → (s.cool.monitors.get p).level = false →
        t.cool.queue = [] ∧ t.cool.stamps = s.cool.stamps + 1 ∧ t.seqs = s.seqs ∧
        t.cool.table = s.cool.table ++
          [⟨.position p, (s.combinationAt p t.cool.band.val a).demand, s.cool.stamps + 1,
            some ⟨c, t.cool.band, a, 0⟩, false⟩]) ∧
      (∀ p c f l, served → s.cool.queue = .position p c (some f) :: l →
        let fits := fun a => (s.combinationAt p f.band.val a).aprr ≠ 0 ∧ (s.combinationAt p f.band.val a).demand ≤ free
        ((∀ a, f.category.index ≤ a.index → ¬fits a) →
          t.cool = { s.cool with band := t.cool.band, capacity := t.cool.capacity }) ∧
        ∀ a, l = [] → f.category.index ≤ a.index → fits a →
          (∀ d, f.category.index ≤ d.index → d.index < a.index → ¬fits d) →
          (s.seq p).state = .hold → (s.seq p).causes.cooling = true → s.cool.allocOf (.position p) = none →
          t.cool.queue = [] ∧ t.cool.stamps = s.cool.stamps + 1 ∧
          t.cool.table = s.cool.table ++
            [⟨.position p, (s.combinationAt p f.band.val a).demand, s.cool.stamps + 1, some { f with category := a }, false⟩] ∧
          (t.seq p).category = some a ∧ (t.seq p).causes = { (s.seq p).causes with cooling := false } ∧
          (t.seq p).state =
            (if (t.seq p).causes.isEmpty = false then .hold
              else if s.bankValvesMatched p = false then .switch
              else if (s.seq p).resume = some .pulse then .pulse else .ramp) ∧
          ((t.seq p).state = .ramp →
            (t.cool.monitors.get p).settle = some (s.time.count + BitVec.ofNat 32 (s.header p).catSettle)) ∧
          ((s.seq p).category ≠ some a ∨ (t.seq p).state ≠ .hold → t.SetpointStands)) ∧
      (∀ c n m l, served → s.cool.queue = .compressor c n m :: l →
        (free < n → t.cool = { s.cool with band := t.cool.band, capacity := t.cool.capacity }) ∧
        (n ≤ free → l = [] → (s.comp c).state = .coolWait → s.sched.queue ≠ [] →
          (t.comp c).state = .starting ∧ ∃ a, t.cool.allocOf (.compressor c) = some a ∧ a.amount = n ∧
            a.stamp = s.cool.stamps + 1))

/-! ## Power-up -/

/-- A power-up and a release of the reset input start the part alike.  With the retention store lost everything is as at
reset.  With it valid the closed records, the contracts, the sale counter, the reactions and the slots' contents, roles
and generations stand, every bank is UNKNOWN, every compressor in LOCKOUT where a SITE slot is ACTIVE, and an OPEN
record of a position is closed with POWER_LOSS and a RESERVED one freed.  A contract keeps its state, tier, class mask
and quota; its remaining allowance is less by what those closures bill, and its sales today more by their number.
Reserved masses and bind counts are those of the records still RESERVED or OPEN, which are none where each position held
one such record at most, so that every one is then 0.  A trip line held low sets the latch with cause LINE, and a
position in DONE is then HALTED (R34, R66, R67, R74, R108, R114, R138, R152, R178, R185, R186, R200).  Seven things are
the model's: State.reset is the power-up with the store lost (notes/assumptions/2.md), the pin keeps its level over a
power-up (3.md), what is retained are the live items (7.md), LOCKOUT stands also with a minimum off time of 0 (25.md),
records are settled also without an ACTIVE SITE slot (28.md), some values with the store lost or without a SITE table
(41.md), and the line is examined after the closures (45.md). -/
def Obligations.PowerUpStartsThePart : Prop :=
  ∀ (a : NodeAddr) (s : State),
    (∀ r, exec (.resetInput a r) s = exec (.powerUp a r) s) ∧
    (s.points.linePulled = false →
      exec (.powerUp a false) s =
        .next { State.reset with
          ring := { State.reset.ring with
            strap := a,
            sending := if a = 0 ∨ a = 255 then none else State.reset.ring.sending },
          pending := s.pending }) ∧
    (s.points.linePulled = true →
      ∃ t : State, exec (.powerUp a false) s = .next t ∧ t.points.trip = .latched ∧ t.points.cause = some .line ∧
        t.tables = TableStore.lost ∧ t.reactions = defaultReactions ∧ t.sales = State.reset.sales ∧
        t.ring.strap = a) ∧
    ∃ t : State, exec (.powerUp a true) s = .next t ∧ t.ring.strap = a ∧ t.time = State.reset.time ∧
      t.points.linePulled = s.points.linePulled ∧
      (s.points.linePulled = true → t.points.trip = .latched ∧ t.points.cause = some .line) ∧
      t.reactions = s.reactions ∧ t.events.enable = BitVec.allOnes 14 ∧ t.sales.retentionLost = false ∧
      t.sales.counter = s.sales.counter ∧ t.sales.contractDay = s.sales.contractDay ∧
      (let bare : Contract → Contract := fun c => { c with remaining := 0, reserved := 0, salesToday := 0 }
       t.sales.contracts.map bare = s.sales.contracts.map bare) ∧
      (∀ id c, s.contract id = some c →
        ∃ d, t.contract id = some d ∧
          let bill := fun i =>
            match s.logAt i, t.logAt i with
            | some r, some q => if r.state = .opened ∧ q.state = .closed ∧ r.contract = some id then some q.billed else none
            | _, _ => none
          let bills := (List.range s.sales.log.length).filterMap bill
          d.remaining = c.remaining - bills.sum ∧ d.salesToday = c.salesToday + bills.length ∧
          d.reserved = (t.sales.log.map fun x =>
            x.elim 0 fun r => if r.state ≠ .closed ∧ r.contract = some id then r.reservation.getD 0 else 0).sum) ∧
      (∀ id,
        let named := fun (f : Bind → SlotRef) =>
          t.sales.log.countP fun x => x.any fun r => r.state != .closed && (f r.bind).slot == id
        (t.tables.gas.slot id).binds = named Bind.gas ∧ (t.tables.protocol.slot id).binds = named Bind.protocol ∧
        (t.tables.tariff.slot id).binds = named Bind.tariff ∧ (t.tables.site.slot id).binds = 0) ∧
      (∀ i r, t.logAt i = some r → r.state ≠ .closed → s.logAt i = some r ∧ s.recordSlot r.position ≠ some i) ∧
      ((∀ i r, s.logAt i = some r → r.state ≠ .closed → s.recordSlot r.position = some i) →
        (∀ c ∈ t.sales.contracts, c.reserved = 0) ∧ ∀ k id, ((t.tables.kind k).slot id).binds = 0) ∧
      (∀ i r, s.logAt i = some r → r.state = .closed → t.logAt i = some r) ∧
      (∀ i, s.logAt i = none → t.logAt i = none) ∧
      (∀ k id,
        ((t.tables.kind k).slot id).role = ((s.tables.kind k).slot id).role ∧
        ((t.tables.kind k).slot id).segments = ((s.tables.kind k).slot id).segments ∧
        ((t.tables.kind k).slot id).generation = ((s.tables.kind k).slot id).generation ∧
        (t.tables.kind k).lastGen = (s.tables.kind k).lastGen) ∧
      (∀ b, (t.bank b).state = .unknown ∧ (t.bank b).pressure = Value.substitute 0) ∧
      (s.site.isSome = true → ∀ c, (t.comp c).state = .lockout) ∧
      (s.site = none → t.sched.comps = State.reset.sched.comps ∧ t.cool = State.reset.cool) ∧
      (∀ p, (t.seq p).state = .idle ∨ (t.seq p).state = .done ∨ (t.latched = true ∧ (t.seq p).state = .halted)) ∧
      ∀ p i r, s.recordSlot p = some i → s.logAt i = some r →
        (r.state = .reserved → t.logAt i = none) ∧
        (r.state = .opened →
          (t.seq p).state = (if t.latched then .halted else .done) ∧ i ∈ t.sales.closure ∧
          ∃ q : SaleRecord, t.logAt i = some q ∧ q.state = .closed ∧ q.reason = some .powerLoss ∧ q.number = r.number)

/-! ## Arithmetic -/

/-- The density is interpolated from the four corners of its cell, the far edges included; it lies between the least and
the greatest corner, and is the grid entry itself at every grid point.  Inputs out of range are clamped and mark the
result, which carries the worse quality.  The ramp target never exceeds its cap and never falls as the ramp time grows.
The valve step stays within the maximum step and the open limit and goes towards the target; it is marked clipped where the
gain asked for more than the maximum step, and saturated where the opening met 0 or the open limit; on an INVALID pressure
it is not taken and the opening is marked held (R42, R43, R47, R50, R51). -/
def Obligations.GasAndControlFigures : Prop :=
  (∀ (g : Slot) (i j fp ft : Nat), i ≤ 39 → j ≤ 15 → fp ≤ 250 → ft ≤ 100 →
    let d := g.densityAt (250 * i + fp) (100 * j + ft)
    let corners := [g.grid i j, g.grid (i + 1) j, g.grid i (j + 1), g.grid (i + 1) (j + 1)]
    d = ((g.grid i j * (250 - fp) + g.grid (i + 1) j * fp) * (100 - ft) +
        (g.grid i (j + 1) * (250 - fp) + g.grid (i + 1) (j + 1) * fp) * ft + 12500) / 25000 ∧
    (∃ x ∈ corners, x ≤ d) ∧ (∃ x ∈ corners, d ≤ x) ∧
    (fp = 0 → ft = 0 → d = g.grid i j) ∧ (fp = 250 → ft = 0 → d = g.grid (i + 1) j) ∧
    (fp = 0 → ft = 100 → d = g.grid i (j + 1)) ∧ (fp = 250 → ft = 100 → d = g.grid (i + 1) (j + 1))) ∧
  (∀ (g : Slot) (p t : Value),
    let x := min (max p.num 0) 10000
    let y := min (max t.num (-600)) 1000
    g.density p t =
      ⟨g.densityAt x.toNat (y + 600).toNat, p.quality.worst t.quality,
        p.clamped || t.clamped || decide (x ≠ p.num) || decide (y ≠ t.num)⟩) ∧
  (∀ (b : Value) (aprr n m cap : Nat), n ≤ m →
    (rampTarget b aprr n cap).num ≤ cap ∧ (rampTarget b aprr n cap).num ≤ (rampTarget b aprr m cap).num ∧
    (b.num ≤ cap → b.num ≤ (rampTarget b aprr n cap).num)) ∧
  ∀ (target : Int) (p : Value) (opening gain maxStep limit : Nat), opening ≤ limit →
    let o := valveStep target p opening gain maxStep limit
    let asked := ((target - p.num) * gain).tdiv 64
    o.opening ≤ limit ∧ o.opening ≤ opening + maxStep ∧ opening ≤ o.opening + maxStep ∧
      (p.num ≤ target → opening ≤ o.opening) ∧ (target ≤ p.num → o.opening ≤ opening) ∧
      (p.valid = false → o = { opening := opening, clipped := false, saturated := false, held := true }) ∧
      (p.valid = true →
        o.held = false ∧ (o.clipped = true ↔ (maxStep : Int) < asked ∨ asked < -(maxStep : Int)) ∧
        (o.clipped = false →
          (o.saturated = true ↔ (opening : Int) + asked < 0 ∨ (limit : Int) < opening + asked) ∧
          (o.saturated = false → (o.opening : Int) = opening + asked)) ∧
        (o.clipped = true → o.saturated = false → o.opening = opening + maxStep ∨ o.opening + maxStep = opening) ∧
        (o.saturated = true → o.opening = 0 ∨ o.opening = limit))

/-! ## What every step keeps -/

/-- Every step keeps the ring port's buffers within their places, ring-out busy while a frame waits, and no answer
outstanding (R188, R189, R191, R192, R195). -/
def Obligations.EveryStepKeepsTheRing : Prop :=
  ∀ s t : State, step s = .next t → s.ring.Bounded → s.ring.Served → s.ring.answering = false →
    t.ring.Bounded ∧ t.ring.Served ∧ t.ring.answering = false

/-- Every step keeps the station trip in force: while the latch is set, every actuator point is owned by SAFE and
commanded its safe value (R23, R24, R33). -/
def Obligations.EveryStepKeepsTheTripSafe : Prop :=
  ∀ s t : State, step s = .next t → s.quiescent → s.TripSafe → t.quiescent ∧ t.TripSafe

/-- Every step keeps the fixed numbers of points, flags, log records and reaction cells, and every reaction at or above
its floor (sections 1.1, 6.2, 11.7, 12.5; R108, R109).  It keeps the cooling allocator in order: at most one entry and one
request to a holder, stamps in the order of the grants, and the held sum within the effective capacity (R155, R156, R160). -/
def Obligations.EveryStepKeepsShapeAndFloors : Prop :=
  ∀ s t : State, step s = .next t →
    (s.Shaped → s.ReactionsFloored → t.Shaped ∧ t.ReactionsFloored) ∧ (s.cool.Orderly → t.cool.Orderly)

/-- The part right after reset meets what every step keeps. -/
def Obligations.ResetMeetsTheInvariants : Prop :=
  State.reset.ring.Bounded ∧ State.reset.ring.Served ∧ State.reset.ring.answering = false ∧ State.reset.quiescent ∧
    State.reset.TripSafe ∧ State.reset.Shaped ∧ State.reset.ReactionsFloored ∧ State.reset.cool.Orderly
end

