-- ==== Sys2Proof/Laws/Lane.lean ====
section
/-! SUPPORT. Reading a lane after a lane is written: the written lane gives the new value, every other lane the old
one. -/

set_option Elab.async false

namespace Sys2Proof.Machine

variable {α β : Type}

@[simp] theorem Six.get_set_self (x : Six α) (i : Fin 6) (a : α) : (x.set i a).get i = a := by
  match i with
  | 0 | 1 | 2 | 3 | 4 | 5 => rfl

theorem Six.get_set_ne (x : Six α) (a : α) {i j : Fin 6} (h : j ≠ i) : (x.set i a).get j = x.get j := by
  match i, j with
  | 0, 1 | 0, 2 | 0, 3 | 0, 4 | 0, 5 | 1, 0 | 1, 2 | 1, 3 | 1, 4 | 1, 5 | 2, 0 | 2, 1 | 2, 3 | 2, 4 | 2, 5
  | 3, 0 | 3, 1 | 3, 2 | 3, 4 | 3, 5 | 4, 0 | 4, 1 | 4, 2 | 4, 3 | 4, 5 | 5, 0 | 5, 1 | 5, 2 | 5, 3 | 5, 4 => rfl
  | 0, 0 | 1, 1 | 2, 2 | 3, 3 | 4, 4 | 5, 5 => exact absurd rfl h

theorem Six.get_set (x : Six α) (a : α) (i j : Fin 6) : (x.set i a).get j = if j = i then a else x.get j := by
  split
  · subst_vars; exact x.get_set_self _ _
  · exact x.get_set_ne a ‹_›

theorem Six.get_modify (x : Six α) (f : α → α) (i j : Fin 6) :
    (x.modify i f).get j = if j = i then f (x.get j) else x.get j := by
  unfold Six.modify
  rw [Six.get_set]
  split
  · subst_vars; rfl
  · rfl

@[simp] theorem Six.get_modify_self (x : Six α) (f : α → α) (i : Fin 6) : (x.modify i f).get i = f (x.get i) := by
  simp [Six.modify]

theorem Six.get_modify_ne (x : Six α) (f : α → α) {i j : Fin 6} (h : j ≠ i) : (x.modify i f).get j = x.get j := by
  simp [Six.modify, Six.get_set_ne, h]

@[simp] theorem Six.get_map (x : Six α) (f : α → β) (i : Fin 6) : (x.map f).get i = f (x.get i) := by
  match i with
  | 0 | 1 | 2 | 3 | 4 | 5 => rfl

@[simp] theorem Six.get_all (a : α) (i : Fin 6) : (Six.all a).get i = a := by
  match i with
  | 0 | 1 | 2 | 3 | 4 | 5 => rfl

@[simp] theorem Two.get_set_self (x : Two α) (i : Fin 2) (a : α) : (x.set i a).get i = a := by
  match i with
  | 0 | 1 => rfl

theorem Two.get_set_ne (x : Two α) (a : α) {i j : Fin 2} (h : j ≠ i) : (x.set i a).get j = x.get j := by
  match i, j with
  | 0, 1 | 1, 0 => rfl
  | 0, 0 | 1, 1 => exact absurd rfl h

theorem Two.get_modify (x : Two α) (f : α → α) (i j : Fin 2) :
    (x.modify i f).get j = if j = i then f (x.get j) else x.get j := by
  unfold Two.modify
  split
  · subst_vars; simp
  · exact x.get_set_ne _ ‹_›

@[simp] theorem Two.get_modify_self (x : Two α) (f : α → α) (i : Fin 2) : (x.modify i f).get i = f (x.get i) := by
  simp [Two.modify]

@[simp] theorem Two.get_map (x : Two α) (f : α → β) (i : Fin 2) : (x.map f).get i = f (x.get i) := by
  match i with
  | 0 | 1 => rfl

@[simp] theorem Two.get_all (a : α) (i : Fin 2) : (Two.all a).get i = a := by
  match i with
  | 0 | 1 => rfl

end Sys2Proof.Machine
end

