-- ==== Sys2Proof/Laws/State.lean ====
section
/-! SUPPORT. What each update of the state does to each of its parts, true by unfolding, so that no later proof opens a
record update. -/

set_option Elab.async false

namespace Sys2Proof.Machine

variable (s : State)

/-! ### mapRing -/

@[simp] theorem State.mapRing_ring (f : Ring → Ring) : (s.mapRing f).ring = f s.ring := rfl
@[simp] theorem State.mapRing_points (f : Ring → Ring) : (s.mapRing f).points = s.points := rfl
@[simp] theorem State.mapRing_tables (f : Ring → Ring) : (s.mapRing f).tables = s.tables := rfl
@[simp] theorem State.mapRing_seqs (f : Ring → Ring) : (s.mapRing f).seqs = s.seqs := rfl
@[simp] theorem State.mapRing_reactions (f : Ring → Ring) : (s.mapRing f).reactions = s.reactions := rfl
@[simp] theorem State.mapRing_banks (f : Ring → Ring) : (s.mapRing f).banks = s.banks := rfl
@[simp] theorem State.mapRing_draws (f : Ring → Ring) : (s.mapRing f).draws = s.draws := rfl
@[simp] theorem State.mapRing_sched (f : Ring → Ring) : (s.mapRing f).sched = s.sched := rfl
@[simp] theorem State.mapRing_cool (f : Ring → Ring) : (s.mapRing f).cool = s.cool := rfl
@[simp] theorem State.mapRing_sales (f : Ring → Ring) : (s.mapRing f).sales = s.sales := rfl
@[simp] theorem State.mapRing_events (f : Ring → Ring) : (s.mapRing f).events = s.events := rfl
@[simp] theorem State.mapRing_time (f : Ring → Ring) : (s.mapRing f).time = s.time := rfl
@[simp] theorem State.mapRing_handOvers (f : Ring → Ring) : (s.mapRing f).handOvers = s.handOvers := rfl
@[simp] theorem State.mapRing_pending (f : Ring → Ring) : (s.mapRing f).pending = s.pending := rfl

/-! ### mapPoints -/

@[simp] theorem State.mapPoints_ring (f : PointUnit → PointUnit) : (s.mapPoints f).ring = s.ring := rfl
@[simp] theorem State.mapPoints_points (f : PointUnit → PointUnit) : (s.mapPoints f).points = f s.points := rfl
@[simp] theorem State.mapPoints_tables (f : PointUnit → PointUnit) : (s.mapPoints f).tables = s.tables := rfl
@[simp] theorem State.mapPoints_seqs (f : PointUnit → PointUnit) : (s.mapPoints f).seqs = s.seqs := rfl
@[simp] theorem State.mapPoints_reactions (f : PointUnit → PointUnit) : (s.mapPoints f).reactions = s.reactions := rfl
@[simp] theorem State.mapPoints_banks (f : PointUnit → PointUnit) : (s.mapPoints f).banks = s.banks := rfl
@[simp] theorem State.mapPoints_draws (f : PointUnit → PointUnit) : (s.mapPoints f).draws = s.draws := rfl
@[simp] theorem State.mapPoints_sched (f : PointUnit → PointUnit) : (s.mapPoints f).sched = s.sched := rfl
@[simp] theorem State.mapPoints_cool (f : PointUnit → PointUnit) : (s.mapPoints f).cool = s.cool := rfl
@[simp] theorem State.mapPoints_sales (f : PointUnit → PointUnit) : (s.mapPoints f).sales = s.sales := rfl
@[simp] theorem State.mapPoints_events (f : PointUnit → PointUnit) : (s.mapPoints f).events = s.events := rfl
@[simp] theorem State.mapPoints_time (f : PointUnit → PointUnit) : (s.mapPoints f).time = s.time := rfl
@[simp] theorem State.mapPoints_handOvers (f : PointUnit → PointUnit) : (s.mapPoints f).handOvers = s.handOvers := rfl
@[simp] theorem State.mapPoints_pending (f : PointUnit → PointUnit) : (s.mapPoints f).pending = s.pending := rfl

/-! ### mapTables -/

@[simp] theorem State.mapTables_ring (f : TableStore → TableStore) : (s.mapTables f).ring = s.ring := rfl
@[simp] theorem State.mapTables_points (f : TableStore → TableStore) : (s.mapTables f).points = s.points := rfl
@[simp] theorem State.mapTables_tables (f : TableStore → TableStore) : (s.mapTables f).tables = f s.tables := rfl
@[simp] theorem State.mapTables_seqs (f : TableStore → TableStore) : (s.mapTables f).seqs = s.seqs := rfl
@[simp] theorem State.mapTables_reactions (f : TableStore → TableStore) :
    (s.mapTables f).reactions = s.reactions := rfl
@[simp] theorem State.mapTables_banks (f : TableStore → TableStore) : (s.mapTables f).banks = s.banks := rfl
@[simp] theorem State.mapTables_draws (f : TableStore → TableStore) : (s.mapTables f).draws = s.draws := rfl
@[simp] theorem State.mapTables_sched (f : TableStore → TableStore) : (s.mapTables f).sched = s.sched := rfl
@[simp] theorem State.mapTables_cool (f : TableStore → TableStore) : (s.mapTables f).cool = s.cool := rfl
@[simp] theorem State.mapTables_sales (f : TableStore → TableStore) : (s.mapTables f).sales = s.sales := rfl
@[simp] theorem State.mapTables_events (f : TableStore → TableStore) : (s.mapTables f).events = s.events := rfl
@[simp] theorem State.mapTables_time (f : TableStore → TableStore) : (s.mapTables f).time = s.time := rfl
@[simp] theorem State.mapTables_handOvers (f : TableStore → TableStore) :
    (s.mapTables f).handOvers = s.handOvers := rfl
@[simp] theorem State.mapTables_pending (f : TableStore → TableStore) : (s.mapTables f).pending = s.pending := rfl

/-! ### mapSeq -/

@[simp] theorem State.mapSeq_ring (p : Pos) (f : Seq → Seq) : (s.mapSeq p f).ring = s.ring := rfl
@[simp] theorem State.mapSeq_points (p : Pos) (f : Seq → Seq) : (s.mapSeq p f).points = s.points := rfl
@[simp] theorem State.mapSeq_tables (p : Pos) (f : Seq → Seq) : (s.mapSeq p f).tables = s.tables := rfl
@[simp] theorem State.mapSeq_seqs (p : Pos) (f : Seq → Seq) : (s.mapSeq p f).seqs = s.seqs.modify p f := rfl
@[simp] theorem State.mapSeq_reactions (p : Pos) (f : Seq → Seq) : (s.mapSeq p f).reactions = s.reactions := rfl
@[simp] theorem State.mapSeq_banks (p : Pos) (f : Seq → Seq) : (s.mapSeq p f).banks = s.banks := rfl
@[simp] theorem State.mapSeq_draws (p : Pos) (f : Seq → Seq) : (s.mapSeq p f).draws = s.draws := rfl
@[simp] theorem State.mapSeq_sched (p : Pos) (f : Seq → Seq) : (s.mapSeq p f).sched = s.sched := rfl
@[simp] theorem State.mapSeq_cool (p : Pos) (f : Seq → Seq) : (s.mapSeq p f).cool = s.cool := rfl
@[simp] theorem State.mapSeq_sales (p : Pos) (f : Seq → Seq) : (s.mapSeq p f).sales = s.sales := rfl
@[simp] theorem State.mapSeq_events (p : Pos) (f : Seq → Seq) : (s.mapSeq p f).events = s.events := rfl
@[simp] theorem State.mapSeq_time (p : Pos) (f : Seq → Seq) : (s.mapSeq p f).time = s.time := rfl
@[simp] theorem State.mapSeq_handOvers (p : Pos) (f : Seq → Seq) : (s.mapSeq p f).handOvers = s.handOvers := rfl
@[simp] theorem State.mapSeq_pending (p : Pos) (f : Seq → Seq) : (s.mapSeq p f).pending = s.pending := rfl

/-! ### setReactions -/

@[simp] theorem State.setReactions_ring (r : List Reaction) : (s.setReactions r).ring = s.ring := rfl
@[simp] theorem State.setReactions_points (r : List Reaction) : (s.setReactions r).points = s.points := rfl
@[simp] theorem State.setReactions_tables (r : List Reaction) : (s.setReactions r).tables = s.tables := rfl
@[simp] theorem State.setReactions_seqs (r : List Reaction) : (s.setReactions r).seqs = s.seqs := rfl
@[simp] theorem State.setReactions_reactions (r : List Reaction) : (s.setReactions r).reactions = r := rfl
@[simp] theorem State.setReactions_banks (r : List Reaction) : (s.setReactions r).banks = s.banks := rfl
@[simp] theorem State.setReactions_draws (r : List Reaction) : (s.setReactions r).draws = s.draws := rfl
@[simp] theorem State.setReactions_sched (r : List Reaction) : (s.setReactions r).sched = s.sched := rfl
@[simp] theorem State.setReactions_cool (r : List Reaction) : (s.setReactions r).cool = s.cool := rfl
@[simp] theorem State.setReactions_sales (r : List Reaction) : (s.setReactions r).sales = s.sales := rfl
@[simp] theorem State.setReactions_events (r : List Reaction) : (s.setReactions r).events = s.events := rfl
@[simp] theorem State.setReactions_time (r : List Reaction) : (s.setReactions r).time = s.time := rfl
@[simp] theorem State.setReactions_handOvers (r : List Reaction) : (s.setReactions r).handOvers = s.handOvers := rfl
@[simp] theorem State.setReactions_pending (r : List Reaction) : (s.setReactions r).pending = s.pending := rfl

/-! ### mapBank -/

@[simp] theorem State.mapBank_ring (b : Bank) (f : BankLive → BankLive) : (s.mapBank b f).ring = s.ring := rfl
@[simp] theorem State.mapBank_points (b : Bank) (f : BankLive → BankLive) : (s.mapBank b f).points = s.points := rfl
@[simp] theorem State.mapBank_tables (b : Bank) (f : BankLive → BankLive) : (s.mapBank b f).tables = s.tables := rfl
@[simp] theorem State.mapBank_seqs (b : Bank) (f : BankLive → BankLive) : (s.mapBank b f).seqs = s.seqs := rfl
@[simp] theorem State.mapBank_reactions (b : Bank) (f : BankLive → BankLive) :
    (s.mapBank b f).reactions = s.reactions := rfl
@[simp] theorem State.mapBank_banks (b : Bank) (f : BankLive → BankLive) :
    (s.mapBank b f).banks = s.banks.modify b f := rfl
@[simp] theorem State.mapBank_draws (b : Bank) (f : BankLive → BankLive) : (s.mapBank b f).draws = s.draws := rfl
@[simp] theorem State.mapBank_sched (b : Bank) (f : BankLive → BankLive) : (s.mapBank b f).sched = s.sched := rfl
@[simp] theorem State.mapBank_cool (b : Bank) (f : BankLive → BankLive) : (s.mapBank b f).cool = s.cool := rfl
@[simp] theorem State.mapBank_sales (b : Bank) (f : BankLive → BankLive) : (s.mapBank b f).sales = s.sales := rfl
@[simp] theorem State.mapBank_events (b : Bank) (f : BankLive → BankLive) : (s.mapBank b f).events = s.events := rfl
@[simp] theorem State.mapBank_time (b : Bank) (f : BankLive → BankLive) : (s.mapBank b f).time = s.time := rfl
@[simp] theorem State.mapBank_handOvers (b : Bank) (f : BankLive → BankLive) :
    (s.mapBank b f).handOvers = s.handOvers := rfl
@[simp] theorem State.mapBank_pending (b : Bank) (f : BankLive → BankLive) :
    (s.mapBank b f).pending = s.pending := rfl

/-! ### setDraw -/

@[simp] theorem State.setDraw_ring (p : Pos) (d : Draw) : (s.setDraw p d).ring = s.ring := rfl
@[simp] theorem State.setDraw_points (p : Pos) (d : Draw) : (s.setDraw p d).points = s.points := rfl
@[simp] theorem State.setDraw_tables (p : Pos) (d : Draw) : (s.setDraw p d).tables = s.tables := rfl
@[simp] theorem State.setDraw_seqs (p : Pos) (d : Draw) : (s.setDraw p d).seqs = s.seqs := rfl
@[simp] theorem State.setDraw_reactions (p : Pos) (d : Draw) : (s.setDraw p d).reactions = s.reactions := rfl
@[simp] theorem State.setDraw_banks (p : Pos) (d : Draw) : (s.setDraw p d).banks = s.banks := rfl
@[simp] theorem State.setDraw_draws (p : Pos) (d : Draw) : (s.setDraw p d).draws = s.draws.set p d := rfl
@[simp] theorem State.setDraw_sched (p : Pos) (d : Draw) : (s.setDraw p d).sched = s.sched := rfl
@[simp] theorem State.setDraw_cool (p : Pos) (d : Draw) : (s.setDraw p d).cool = s.cool := rfl
@[simp] theorem State.setDraw_sales (p : Pos) (d : Draw) : (s.setDraw p d).sales = s.sales := rfl
@[simp] theorem State.setDraw_events (p : Pos) (d : Draw) : (s.setDraw p d).events = s.events := rfl
@[simp] theorem State.setDraw_time (p : Pos) (d : Draw) : (s.setDraw p d).time = s.time := rfl
@[simp] theorem State.setDraw_handOvers (p : Pos) (d : Draw) : (s.setDraw p d).handOvers = s.handOvers := rfl
@[simp] theorem State.setDraw_pending (p : Pos) (d : Draw) : (s.setDraw p d).pending = s.pending := rfl

/-! ### mapSched -/

@[simp] theorem State.mapSched_ring (f : Scheduler → Scheduler) : (s.mapSched f).ring = s.ring := rfl
@[simp] theorem State.mapSched_points (f : Scheduler → Scheduler) : (s.mapSched f).points = s.points := rfl
@[simp] theorem State.mapSched_tables (f : Scheduler → Scheduler) : (s.mapSched f).tables = s.tables := rfl
@[simp] theorem State.mapSched_seqs (f : Scheduler → Scheduler) : (s.mapSched f).seqs = s.seqs := rfl
@[simp] theorem State.mapSched_reactions (f : Scheduler → Scheduler) : (s.mapSched f).reactions = s.reactions := rfl
@[simp] theorem State.mapSched_banks (f : Scheduler → Scheduler) : (s.mapSched f).banks = s.banks := rfl
@[simp] theorem State.mapSched_draws (f : Scheduler → Scheduler) : (s.mapSched f).draws = s.draws := rfl
@[simp] theorem State.mapSched_sched (f : Scheduler → Scheduler) : (s.mapSched f).sched = f s.sched := rfl
@[simp] theorem State.mapSched_cool (f : Scheduler → Scheduler) : (s.mapSched f).cool = s.cool := rfl
@[simp] theorem State.mapSched_sales (f : Scheduler → Scheduler) : (s.mapSched f).sales = s.sales := rfl
@[simp] theorem State.mapSched_events (f : Scheduler → Scheduler) : (s.mapSched f).events = s.events := rfl
@[simp] theorem State.mapSched_time (f : Scheduler → Scheduler) : (s.mapSched f).time = s.time := rfl
@[simp] theorem State.mapSched_handOvers (f : Scheduler → Scheduler) : (s.mapSched f).handOvers = s.handOvers := rfl
@[simp] theorem State.mapSched_pending (f : Scheduler → Scheduler) : (s.mapSched f).pending = s.pending := rfl

/-! ### mapComp -/

@[simp] theorem State.mapComp_ring (c : Comp) (f : CompRecord → CompRecord) : (s.mapComp c f).ring = s.ring := rfl
@[simp] theorem State.mapComp_points (c : Comp) (f : CompRecord → CompRecord) :
    (s.mapComp c f).points = s.points := rfl
@[simp] theorem State.mapComp_tables (c : Comp) (f : CompRecord → CompRecord) :
    (s.mapComp c f).tables = s.tables := rfl
@[simp] theorem State.mapComp_seqs (c : Comp) (f : CompRecord → CompRecord) : (s.mapComp c f).seqs = s.seqs := rfl
@[simp] theorem State.mapComp_reactions (c : Comp) (f : CompRecord → CompRecord) :
    (s.mapComp c f).reactions = s.reactions := rfl
@[simp] theorem State.mapComp_banks (c : Comp) (f : CompRecord → CompRecord) : (s.mapComp c f).banks = s.banks := rfl
@[simp] theorem State.mapComp_draws (c : Comp) (f : CompRecord → CompRecord) : (s.mapComp c f).draws = s.draws := rfl
@[simp] theorem State.mapComp_sched (c : Comp) (f : CompRecord → CompRecord) :
    (s.mapComp c f).sched = { s.sched with comps := s.sched.comps.modify c f } := rfl
@[simp] theorem State.mapComp_cool (c : Comp) (f : CompRecord → CompRecord) : (s.mapComp c f).cool = s.cool := rfl
@[simp] theorem State.mapComp_sales (c : Comp) (f : CompRecord → CompRecord) : (s.mapComp c f).sales = s.sales := rfl
@[simp] theorem State.mapComp_events (c : Comp) (f : CompRecord → CompRecord) :
    (s.mapComp c f).events = s.events := rfl
@[simp] theorem State.mapComp_time (c : Comp) (f : CompRecord → CompRecord) : (s.mapComp c f).time = s.time := rfl
@[simp] theorem State.mapComp_handOvers (c : Comp) (f : CompRecord → CompRecord) :
    (s.mapComp c f).handOvers = s.handOvers := rfl
@[simp] theorem State.mapComp_pending (c : Comp) (f : CompRecord → CompRecord) :
    (s.mapComp c f).pending = s.pending := rfl

/-! ### mapCool -/

@[simp] theorem State.mapCool_ring (f : Cooling → Cooling) : (s.mapCool f).ring = s.ring := rfl
@[simp] theorem State.mapCool_points (f : Cooling → Cooling) : (s.mapCool f).points = s.points := rfl
@[simp] theorem State.mapCool_tables (f : Cooling → Cooling) : (s.mapCool f).tables = s.tables := rfl
@[simp] theorem State.mapCool_seqs (f : Cooling → Cooling) : (s.mapCool f).seqs = s.seqs := rfl
@[simp] theorem State.mapCool_reactions (f : Cooling → Cooling) : (s.mapCool f).reactions = s.reactions := rfl
@[simp] theorem State.mapCool_banks (f : Cooling → Cooling) : (s.mapCool f).banks = s.banks := rfl
@[simp] theorem State.mapCool_draws (f : Cooling → Cooling) : (s.mapCool f).draws = s.draws := rfl
@[simp] theorem State.mapCool_sched (f : Cooling → Cooling) : (s.mapCool f).sched = s.sched := rfl
@[simp] theorem State.mapCool_cool (f : Cooling → Cooling) : (s.mapCool f).cool = f s.cool := rfl
@[simp] theorem State.mapCool_sales (f : Cooling → Cooling) : (s.mapCool f).sales = s.sales := rfl
@[simp] theorem State.mapCool_events (f : Cooling → Cooling) : (s.mapCool f).events = s.events := rfl
@[simp] theorem State.mapCool_time (f : Cooling → Cooling) : (s.mapCool f).time = s.time := rfl
@[simp] theorem State.mapCool_handOvers (f : Cooling → Cooling) : (s.mapCool f).handOvers = s.handOvers := rfl
@[simp] theorem State.mapCool_pending (f : Cooling → Cooling) : (s.mapCool f).pending = s.pending := rfl

/-! ### mapMonitor -/

@[simp] theorem State.mapMonitor_ring (p : Pos) (f : Monitor → Monitor) : (s.mapMonitor p f).ring = s.ring := rfl
@[simp] theorem State.mapMonitor_points (p : Pos) (f : Monitor → Monitor) :
    (s.mapMonitor p f).points = s.points := rfl
@[simp] theorem State.mapMonitor_tables (p : Pos) (f : Monitor → Monitor) :
    (s.mapMonitor p f).tables = s.tables := rfl
@[simp] theorem State.mapMonitor_seqs (p : Pos) (f : Monitor → Monitor) : (s.mapMonitor p f).seqs = s.seqs := rfl
@[simp] theorem State.mapMonitor_reactions (p : Pos) (f : Monitor → Monitor) :
    (s.mapMonitor p f).reactions = s.reactions := rfl
@[simp] theorem State.mapMonitor_banks (p : Pos) (f : Monitor → Monitor) : (s.mapMonitor p f).banks = s.banks := rfl
@[simp] theorem State.mapMonitor_draws (p : Pos) (f : Monitor → Monitor) : (s.mapMonitor p f).draws = s.draws := rfl
@[simp] theorem State.mapMonitor_sched (p : Pos) (f : Monitor → Monitor) : (s.mapMonitor p f).sched = s.sched := rfl
@[simp] theorem State.mapMonitor_cool (p : Pos) (f : Monitor → Monitor) :
    (s.mapMonitor p f).cool = { s.cool with monitors := s.cool.monitors.modify p f } := rfl
@[simp] theorem State.mapMonitor_sales (p : Pos) (f : Monitor → Monitor) : (s.mapMonitor p f).sales = s.sales := rfl
@[simp] theorem State.mapMonitor_events (p : Pos) (f : Monitor → Monitor) :
    (s.mapMonitor p f).events = s.events := rfl
@[simp] theorem State.mapMonitor_time (p : Pos) (f : Monitor → Monitor) : (s.mapMonitor p f).time = s.time := rfl
@[simp] theorem State.mapMonitor_handOvers (p : Pos) (f : Monitor → Monitor) :
    (s.mapMonitor p f).handOvers = s.handOvers := rfl
@[simp] theorem State.mapMonitor_pending (p : Pos) (f : Monitor → Monitor) :
    (s.mapMonitor p f).pending = s.pending := rfl

/-! ### mapSales -/

@[simp] theorem State.mapSales_ring (f : Sales → Sales) : (s.mapSales f).ring = s.ring := rfl
@[simp] theorem State.mapSales_points (f : Sales → Sales) : (s.mapSales f).points = s.points := rfl
@[simp] theorem State.mapSales_tables (f : Sales → Sales) : (s.mapSales f).tables = s.tables := rfl
@[simp] theorem State.mapSales_seqs (f : Sales → Sales) : (s.mapSales f).seqs = s.seqs := rfl
@[simp] theorem State.mapSales_reactions (f : Sales → Sales) : (s.mapSales f).reactions = s.reactions := rfl
@[simp] theorem State.mapSales_banks (f : Sales → Sales) : (s.mapSales f).banks = s.banks := rfl
@[simp] theorem State.mapSales_draws (f : Sales → Sales) : (s.mapSales f).draws = s.draws := rfl
@[simp] theorem State.mapSales_sched (f : Sales → Sales) : (s.mapSales f).sched = s.sched := rfl
@[simp] theorem State.mapSales_cool (f : Sales → Sales) : (s.mapSales f).cool = s.cool := rfl
@[simp] theorem State.mapSales_sales (f : Sales → Sales) : (s.mapSales f).sales = f s.sales := rfl
@[simp] theorem State.mapSales_events (f : Sales → Sales) : (s.mapSales f).events = s.events := rfl
@[simp] theorem State.mapSales_time (f : Sales → Sales) : (s.mapSales f).time = s.time := rfl
@[simp] theorem State.mapSales_handOvers (f : Sales → Sales) : (s.mapSales f).handOvers = s.handOvers := rfl
@[simp] theorem State.mapSales_pending (f : Sales → Sales) : (s.mapSales f).pending = s.pending := rfl

/-! ### setLog -/

@[simp] theorem State.setLog_ring (i : Nat) (r : Option SaleRecord) : (s.setLog i r).ring = s.ring := rfl
@[simp] theorem State.setLog_points (i : Nat) (r : Option SaleRecord) : (s.setLog i r).points = s.points := rfl
@[simp] theorem State.setLog_tables (i : Nat) (r : Option SaleRecord) : (s.setLog i r).tables = s.tables := rfl
@[simp] theorem State.setLog_seqs (i : Nat) (r : Option SaleRecord) : (s.setLog i r).seqs = s.seqs := rfl
@[simp] theorem State.setLog_reactions (i : Nat) (r : Option SaleRecord) :
    (s.setLog i r).reactions = s.reactions := rfl
@[simp] theorem State.setLog_banks (i : Nat) (r : Option SaleRecord) : (s.setLog i r).banks = s.banks := rfl
@[simp] theorem State.setLog_draws (i : Nat) (r : Option SaleRecord) : (s.setLog i r).draws = s.draws := rfl
@[simp] theorem State.setLog_sched (i : Nat) (r : Option SaleRecord) : (s.setLog i r).sched = s.sched := rfl
@[simp] theorem State.setLog_cool (i : Nat) (r : Option SaleRecord) : (s.setLog i r).cool = s.cool := rfl
@[simp] theorem State.setLog_sales (i : Nat) (r : Option SaleRecord) :
    (s.setLog i r).sales = { s.sales with log := s.sales.log.set i r } := rfl
@[simp] theorem State.setLog_events (i : Nat) (r : Option SaleRecord) : (s.setLog i r).events = s.events := rfl
@[simp] theorem State.setLog_time (i : Nat) (r : Option SaleRecord) : (s.setLog i r).time = s.time := rfl
@[simp] theorem State.setLog_handOvers (i : Nat) (r : Option SaleRecord) :
    (s.setLog i r).handOvers = s.handOvers := rfl
@[simp] theorem State.setLog_pending (i : Nat) (r : Option SaleRecord) : (s.setLog i r).pending = s.pending := rfl

/-! ### mapEvents -/

@[simp] theorem State.mapEvents_ring (f : EventUnit → EventUnit) : (s.mapEvents f).ring = s.ring := rfl
@[simp] theorem State.mapEvents_points (f : EventUnit → EventUnit) : (s.mapEvents f).points = s.points := rfl
@[simp] theorem State.mapEvents_tables (f : EventUnit → EventUnit) : (s.mapEvents f).tables = s.tables := rfl
@[simp] theorem State.mapEvents_seqs (f : EventUnit → EventUnit) : (s.mapEvents f).seqs = s.seqs := rfl
@[simp] theorem State.mapEvents_reactions (f : EventUnit → EventUnit) : (s.mapEvents f).reactions = s.reactions := rfl
@[simp] theorem State.mapEvents_banks (f : EventUnit → EventUnit) : (s.mapEvents f).banks = s.banks := rfl
@[simp] theorem State.mapEvents_draws (f : EventUnit → EventUnit) : (s.mapEvents f).draws = s.draws := rfl
@[simp] theorem State.mapEvents_sched (f : EventUnit → EventUnit) : (s.mapEvents f).sched = s.sched := rfl
@[simp] theorem State.mapEvents_cool (f : EventUnit → EventUnit) : (s.mapEvents f).cool = s.cool := rfl
@[simp] theorem State.mapEvents_sales (f : EventUnit → EventUnit) : (s.mapEvents f).sales = s.sales := rfl
@[simp] theorem State.mapEvents_events (f : EventUnit → EventUnit) : (s.mapEvents f).events = f s.events := rfl
@[simp] theorem State.mapEvents_time (f : EventUnit → EventUnit) : (s.mapEvents f).time = s.time := rfl
@[simp] theorem State.mapEvents_handOvers (f : EventUnit → EventUnit) : (s.mapEvents f).handOvers = s.handOvers := rfl
@[simp] theorem State.mapEvents_pending (f : EventUnit → EventUnit) : (s.mapEvents f).pending = s.pending := rfl

/-! ### mapTime -/

@[simp] theorem State.mapTime_ring (f : TimeBase → TimeBase) : (s.mapTime f).ring = s.ring := rfl
@[simp] theorem State.mapTime_points (f : TimeBase → TimeBase) : (s.mapTime f).points = s.points := rfl
@[simp] theorem State.mapTime_tables (f : TimeBase → TimeBase) : (s.mapTime f).tables = s.tables := rfl
@[simp] theorem State.mapTime_seqs (f : TimeBase → TimeBase) : (s.mapTime f).seqs = s.seqs := rfl
@[simp] theorem State.mapTime_reactions (f : TimeBase → TimeBase) : (s.mapTime f).reactions = s.reactions := rfl
@[simp] theorem State.mapTime_banks (f : TimeBase → TimeBase) : (s.mapTime f).banks = s.banks := rfl
@[simp] theorem State.mapTime_draws (f : TimeBase → TimeBase) : (s.mapTime f).draws = s.draws := rfl
@[simp] theorem State.mapTime_sched (f : TimeBase → TimeBase) : (s.mapTime f).sched = s.sched := rfl
@[simp] theorem State.mapTime_cool (f : TimeBase → TimeBase) : (s.mapTime f).cool = s.cool := rfl
@[simp] theorem State.mapTime_sales (f : TimeBase → TimeBase) : (s.mapTime f).sales = s.sales := rfl
@[simp] theorem State.mapTime_events (f : TimeBase → TimeBase) : (s.mapTime f).events = s.events := rfl
@[simp] theorem State.mapTime_time (f : TimeBase → TimeBase) : (s.mapTime f).time = f s.time := rfl
@[simp] theorem State.mapTime_handOvers (f : TimeBase → TimeBase) : (s.mapTime f).handOvers = s.handOvers := rfl
@[simp] theorem State.mapTime_pending (f : TimeBase → TimeBase) : (s.mapTime f).pending = s.pending := rfl

/-! ### emit -/

@[simp] theorem State.emit_ring (h : HandOver) : (s.emit h).ring = s.ring := rfl
@[simp] theorem State.emit_points (h : HandOver) : (s.emit h).points = s.points := rfl
@[simp] theorem State.emit_tables (h : HandOver) : (s.emit h).tables = s.tables := rfl
@[simp] theorem State.emit_seqs (h : HandOver) : (s.emit h).seqs = s.seqs := rfl
@[simp] theorem State.emit_reactions (h : HandOver) : (s.emit h).reactions = s.reactions := rfl
@[simp] theorem State.emit_banks (h : HandOver) : (s.emit h).banks = s.banks := rfl
@[simp] theorem State.emit_draws (h : HandOver) : (s.emit h).draws = s.draws := rfl
@[simp] theorem State.emit_sched (h : HandOver) : (s.emit h).sched = s.sched := rfl
@[simp] theorem State.emit_cool (h : HandOver) : (s.emit h).cool = s.cool := rfl
@[simp] theorem State.emit_sales (h : HandOver) : (s.emit h).sales = s.sales := rfl
@[simp] theorem State.emit_events (h : HandOver) : (s.emit h).events = s.events := rfl
@[simp] theorem State.emit_time (h : HandOver) : (s.emit h).time = s.time := rfl
@[simp] theorem State.emit_handOvers (h : HandOver) : (s.emit h).handOvers = s.handOvers ++ [h] := rfl
@[simp] theorem State.emit_pending (h : HandOver) : (s.emit h).pending = s.pending := rfl

/-! ### setPending -/

@[simp] theorem State.setPending_ring (q : List Instr) : (s.setPending q).ring = s.ring := rfl
@[simp] theorem State.setPending_points (q : List Instr) : (s.setPending q).points = s.points := rfl
@[simp] theorem State.setPending_tables (q : List Instr) : (s.setPending q).tables = s.tables := rfl
@[simp] theorem State.setPending_seqs (q : List Instr) : (s.setPending q).seqs = s.seqs := rfl
@[simp] theorem State.setPending_reactions (q : List Instr) : (s.setPending q).reactions = s.reactions := rfl
@[simp] theorem State.setPending_banks (q : List Instr) : (s.setPending q).banks = s.banks := rfl
@[simp] theorem State.setPending_draws (q : List Instr) : (s.setPending q).draws = s.draws := rfl
@[simp] theorem State.setPending_sched (q : List Instr) : (s.setPending q).sched = s.sched := rfl
@[simp] theorem State.setPending_cool (q : List Instr) : (s.setPending q).cool = s.cool := rfl
@[simp] theorem State.setPending_sales (q : List Instr) : (s.setPending q).sales = s.sales := rfl
@[simp] theorem State.setPending_events (q : List Instr) : (s.setPending q).events = s.events := rfl
@[simp] theorem State.setPending_time (q : List Instr) : (s.setPending q).time = s.time := rfl
@[simp] theorem State.setPending_handOvers (q : List Instr) : (s.setPending q).handOvers = s.handOvers := rfl
@[simp] theorem State.setPending_pending (q : List Instr) : (s.setPending q).pending = q := rfl

/-! ### setRecord -/

@[simp] theorem State.setRecord_ring (i : Nat) (r : PointRecord) : (s.setRecord i r).ring = s.ring := rfl
@[simp] theorem State.setRecord_points (i : Nat) (r : PointRecord) :
    (s.setRecord i r).points = { s.points with records := s.points.records.set i r } := rfl
@[simp] theorem State.setRecord_tables (i : Nat) (r : PointRecord) : (s.setRecord i r).tables = s.tables := rfl
@[simp] theorem State.setRecord_seqs (i : Nat) (r : PointRecord) : (s.setRecord i r).seqs = s.seqs := rfl
@[simp] theorem State.setRecord_reactions (i : Nat) (r : PointRecord) :
    (s.setRecord i r).reactions = s.reactions := rfl
@[simp] theorem State.setRecord_banks (i : Nat) (r : PointRecord) : (s.setRecord i r).banks = s.banks := rfl
@[simp] theorem State.setRecord_draws (i : Nat) (r : PointRecord) : (s.setRecord i r).draws = s.draws := rfl
@[simp] theorem State.setRecord_sched (i : Nat) (r : PointRecord) : (s.setRecord i r).sched = s.sched := rfl
@[simp] theorem State.setRecord_cool (i : Nat) (r : PointRecord) : (s.setRecord i r).cool = s.cool := rfl
@[simp] theorem State.setRecord_sales (i : Nat) (r : PointRecord) : (s.setRecord i r).sales = s.sales := rfl
@[simp] theorem State.setRecord_events (i : Nat) (r : PointRecord) : (s.setRecord i r).events = s.events := rfl
@[simp] theorem State.setRecord_time (i : Nat) (r : PointRecord) : (s.setRecord i r).time = s.time := rfl
@[simp] theorem State.setRecord_handOvers (i : Nat) (r : PointRecord) :
    (s.setRecord i r).handOvers = s.handOvers := rfl
@[simp] theorem State.setRecord_pending (i : Nat) (r : PointRecord) : (s.setRecord i r).pending = s.pending := rfl

end Sys2Proof.Machine
end

