-- ==== Sys2Proof/Laws/Kept.lean ====
section
/-! SUPPORT. What no operation below a command's own effect can do: `Kept` says, block by block, what every hand-over and
every consequence of a command leaves as it was.  `x` is a position whose own change is under way, `y` a compressor. -/

set_option Elab.async false

namespace Sys2Proof.Machine

/-! ## The relations, one for each block -/

/-- What consequences leave of the ring port. -/
structure RingKept (a b : Ring) : Prop where
  strap      : b.strap = a.strap
  answering  : b.answering = a.answering
  drops      : b.drops = a.drops
  discards   : b.discards = a.discards
  forwarding : b.forwarding.length ≤ a.forwarding.length
  notices    : a.notices.length ≤ Config.noticePlaces → b.notices.length ≤ Config.noticePlaces
  places     : a.placesTaken ≤ Config.responsePlaces → b.placesTaken ≤ Config.responsePlaces
  deferred   : a.deferred = none → b.deferred = none

/-- What consequences leave of the record of a point: a sensor record altogether. -/
def PointRecord.Kept : PointRecord → PointRecord → Prop
  | .actuator _, b => ∃ r, b = .actuator r
  | a, b => b = a

/-- What consequences leave of the point unit. -/
structure PointsKept (a b : PointUnit) : Prop where
  length     : b.records.length = a.records.length
  records    : ∀ i, (a.records.getD i .empty).Kept (b.records.getD i .empty)
  line       : b.linePulled = a.linePulled
  latched    : a.trip = .latched → b.trip = .latched ∧ b.cause = a.cause
  set        : a.trip ≠ .clear → b.trip ≠ .clear
  notSettling : a.trip ≠ .settling → b.trip ≠ .settling

/-- What consequences leave of the state of a position; `own` says that the position's own change is under way. -/
structure SeqKept (own : Prop) (a b : PosState) : Prop where
  out     : a = .halted ∨ a = .outOfService → b = a
  idle    : ¬own → a = .idle → b = .idle
  drained : a.beforeVent = false → b.beforeVent = false

/-- What consequences leave of a compressor. -/
structure CompKept (own : Prop) (a b : CompRecord) : Prop where
  out  : a.state = .faulted ∨ a.state = .disabled → b.state = a.state ∧ b.lastFault = a.lastFault
  rest : ¬own → a.state.resting = true → b.state = a.state ∧ b.lastStop = a.lastStop ∧ b.lastFault = a.lastFault

/-- What consequences leave of the event unit: no set flag is cleared. -/
structure EventsKept (a b : EventUnit) : Prop where
  enable : b.enable = a.enable
  length : b.flags.length = a.flags.length
  set    : ∀ i, (a.flags.getD i none).isSome = true → (b.flags.getD i none).isSome = true

/-- What also the commands leave that bring a value from outside: a reading, a total, a link frame, a bank's
state. -/
structure Loose (s t : State) : Prop where
  ring      : RingKept s.ring t.ring
  points    : PointsKept s.points t.points
  tables    : TablesKept s.tables t.tables
  sales     : SalesKept s.sales t.sales
  events    : EventsKept s.events t.events
  time      : t.time = s.time
  reactions : t.reactions = s.reactions
  pending   : t.pending = s.pending
  safeAt    : s.latched = true → ∀ i, s.SafeAt i → t.SafeAt i
  newlySafe : s.latched = false → t.latched = true → ∀ i ∈ t.actuatorPoints, t.SafeAt i

/-- What every consequence of a command leaves as it was. -/
structure Kept (x : Option Pos) (y : Option Comp) (s t : State) : Prop extends Loose s t where
  pairs     : t.points.pairs = s.points.pairs
  intake    : ∀ p, { t.sales.intake.get p with interval := .gasOpen } =
    { s.sales.intake.get p with interval := .gasOpen }
  seqs      : ∀ p, SeqKept (x = some p) (s.seqs.get p).state (t.seqs.get p).state
  comps     : ∀ c, CompKept (y = some c) (s.sched.comps.get c) (t.sched.comps.get c)
  blocked   : ∀ c, y ≠ some c → s.startBlocked c = true → (s.sched.comps.get c).state = .stopped →
    (t.sched.comps.get c).state = .stopped
  copies    : t.sched.copies = s.sched.copies
  banks     : ∀ b, (t.banks.get b).state = (s.banks.get b).state ∧ (t.banks.get b).pressure = (s.banks.get b).pressure
  band      : t.cool.band = s.cool.band
  capacity  : t.cool.capacity = s.cool.capacity

/-! ## Each is reflexive and transitive -/

theorem RingKept.refl (a : Ring) : RingKept a a := by constructor <;> simp

theorem RingKept.trans {a b c : Ring} (h : RingKept a b) (k : RingKept b c) : RingKept a c where
  strap := k.strap.trans h.strap
  answering := k.answering.trans h.answering
  drops := k.drops.trans h.drops
  discards := k.discards.trans h.discards
  forwarding := Nat.le_trans k.forwarding h.forwarding
  notices := k.notices ∘ h.notices
  places := k.places ∘ h.places
  deferred := k.deferred ∘ h.deferred

@[simp] theorem PointRecord.Kept.refl (a : PointRecord) : a.Kept a := by cases a <;> simp [PointRecord.Kept]

theorem PointRecord.Kept.trans {a b c : PointRecord} (h : a.Kept b) (k : b.Kept c) : a.Kept c := by
  cases a <;> simp only [PointRecord.Kept] at h
  · subst h; exact k
  · subst h; exact k
  · obtain ⟨r, rfl⟩ := h; exact k

theorem PointsKept.refl (a : PointUnit) : PointsKept a a := by constructor <;> simp

theorem PointsKept.trans {a b c : PointUnit} (h : PointsKept a b) (k : PointsKept b c) : PointsKept a c where
  length := k.length.trans h.length
  records i := (h.records i).trans (k.records i)
  line := k.line.trans h.line
  latched e := ⟨(k.latched (h.latched e).1).1, (k.latched (h.latched e).1).2.trans (h.latched e).2⟩
  set := k.set ∘ h.set
  notSettling := k.notSettling ∘ h.notSettling

theorem TablesKept.refl (a : TableStore) : TablesKept a a := ⟨rfl, rfl, rfl, rfl⟩

theorem TablesKept.trans {a b c : TableStore} (h : TablesKept a b) (k : TablesKept b c) : TablesKept a c :=
  ⟨k.gas.trans h.gas, k.protocol.trans h.protocol, k.tariff.trans h.tariff, k.site.trans h.site⟩

theorem SeqKept.refl (own : Prop) (a : PosState) : SeqKept own a a := by constructor <;> simp

theorem SeqKept.trans {own : Prop} {a b c : PosState} (h : SeqKept own a b) (k : SeqKept own b c) : SeqKept own a c where
  out e := by
    have := h.out e
    subst this
    exact k.out e
  idle n e := k.idle n (h.idle n e)
  drained := k.drained ∘ h.drained

theorem CompKept.refl (own : Prop) (a : CompRecord) : CompKept own a a := by constructor <;> simp

theorem CompKept.trans {own : Prop} {a b c : CompRecord} (h : CompKept own a b) (k : CompKept own b c) :
    CompKept own a c where
  out e := by
    obtain ⟨h1, h2⟩ := h.out e
    obtain ⟨k1, k2⟩ := k.out (h1 ▸ e)
    exact ⟨k1.trans h1, k2.trans h2⟩
  rest n e := by
    obtain ⟨h1, h2, h3⟩ := h.rest n e
    obtain ⟨k1, k2, k3⟩ := k.rest n (h1 ▸ e)
    exact ⟨k1.trans h1, k2.trans h2, k3.trans h3⟩

theorem SalesKept.refl (a : Sales) : SalesKept a a :=
  ⟨rfl, fun _ => id, fun _ _ e _ => e, List.prefix_refl _, rfl, rfl, rfl, rfl⟩

theorem SalesKept.trans {a b c : Sales} (h : SalesKept a b) (k : SalesKept b c) : SalesKept a c where
  length := k.length.trans h.length
  free i := k.free i ∘ h.free i
  closed i r e n := k.closed i r (h.closed i r e n) n
  closure := h.closure.trans k.closure
  counter := k.counter.trans h.counter
  day := k.day.trans h.day
  retention := k.retention.trans h.retention
  contracts := k.contracts.trans h.contracts

theorem EventsKept.refl (a : EventUnit) : EventsKept a a := by constructor <;> simp

theorem EventsKept.trans {a b c : EventUnit} (h : EventsKept a b) (k : EventsKept b c) : EventsKept a c where
  enable := k.enable.trans h.enable
  length := k.length.trans h.length
  set i := k.set i ∘ h.set i

variable {x : Option Pos} {y : Option Comp} {s t u : State}

/-! ## What follows for the readings of a state -/

theorem Loose.site_eq (h : Loose s t) : t.site = s.site := by simp [State.site, h.tables.site]

theorem Loose.entry_eq (h : Loose s t) (i : Nat) : t.entry i = s.entry i := by simp [State.entry, h.site_eq]

theorem Loose.live_eq (h : Loose s t) (i : Nat) : t.live i = s.live i := by
  have k := h.points.records i
  unfold State.live State.record
  generalize s.points.records.getD i .empty = a at k ⊢
  cases a <;> simp only [PointRecord.Kept] at k
  · rw [k]
  · rw [k]
  · obtain ⟨r, e⟩ := k
    rw [e]

theorem Loose.findPoint_eq (h : Loose s t) (f : Fn) (sc : EventScope) : t.findPoint f sc = s.findPoint f sc := by
  simp [State.findPoint, h.site_eq]

theorem Loose.findValve_eq (h : Loose s t) (f : Fn) (sc : EventScope) (b : Bank) :
    t.findValve f sc b = s.findValve f sc b := by
  simp [State.findValve, h.site_eq]

theorem Loose.pointsWhere_eq (h : Loose s t) (q : PointEntry → Bool) : t.pointsWhere q = s.pointsWhere q := by
  simp [State.pointsWhere, h.site_eq]

theorem Loose.actuatorPoints_eq (h : Loose s t) : t.actuatorPoints = s.actuatorPoints := h.pointsWhere_eq _

theorem Loose.sensor_eq (h : Loose s t) (f : Fn) (sc : EventScope) : t.sensor f sc = s.sensor f sc := by
  unfold State.sensor
  rw [h.findPoint_eq, show t.live = s.live from funext h.live_eq]

theorem Loose.nozzleIs_eq (h : Loose s t) (p : Pos) (v : Int) : t.nozzleIs p v = s.nozzleIs p v := by
  simp [State.nozzleIs, h.sensor_eq]

theorem Loose.latched_of (h : Loose s t) (e : s.latched = true) : t.latched = true := by
  simp only [State.latched, bne_iff_ne] at *
  exact h.points.set e

theorem Loose.startBlocked_of (h : Loose s t) (c : Comp) (e : s.startBlocked c = true) : t.startBlocked c = true := by
  simp only [State.startBlocked, Bool.or_eq_true, Bool.not_eq_true'] at *
  refine e.imp h.latched_of fun e => ?_
  simpa [State.dischargeReady, h.sensor_eq] using e

/-! ## Both are preorders -/

theorem Loose.refl : Loose s s where
  ring := .refl _
  points := .refl _
  tables := .refl _
  sales := .refl _
  events := .refl _
  time := rfl
  reactions := rfl
  pending := rfl
  safeAt _ _ := id
  newlySafe e f := by simp [e] at f

theorem Loose.trans (h : Loose s t) (k : Loose t u) : Loose s u where
  ring := h.ring.trans k.ring
  points := h.points.trans k.points
  tables := h.tables.trans k.tables
  sales := h.sales.trans k.sales
  events := h.events.trans k.events
  time := k.time.trans h.time
  reactions := k.reactions.trans h.reactions
  pending := k.pending.trans h.pending
  safeAt e i := k.safeAt (h.latched_of e) i ∘ h.safeAt e i
  newlySafe e f i m := by
    cases l : t.latched
    · exact k.newlySafe l f i m
    · exact k.safeAt l i (h.newlySafe e l i (k.actuatorPoints_eq ▸ m))

@[simp] theorem Kept.refl : Kept x y s s where
  toLoose := .refl
  pairs := rfl
  intake _ := rfl
  seqs _ := .refl _ _
  comps _ := .refl _ _
  blocked _ _ _ := id
  copies := rfl
  banks _ := ⟨rfl, rfl⟩
  band := rfl
  capacity := rfl

theorem Kept.trans (h : Kept x y s t) (k : Kept x y t u) : Kept x y s u where
  toLoose := h.toLoose.trans k.toLoose
  pairs := k.pairs.trans h.pairs
  intake p := (k.intake p).trans (h.intake p)
  seqs p := (h.seqs p).trans (k.seqs p)
  comps c := (h.comps c).trans (k.comps c)
  blocked c n e f := k.blocked c n (h.startBlocked_of c e) (h.blocked c n e f)
  copies := k.copies.trans h.copies
  banks b := ⟨(k.banks b).1.trans (h.banks b).1, (k.banks b).2.trans (h.banks b).2⟩
  band := k.band.trans h.band
  capacity := k.capacity.trans h.capacity

/-- What holds with nobody's own change under way holds with anybody's. -/
theorem Kept.weaken (h : Kept none none s t) : Kept x y s t :=
  { h with
    seqs := fun p => ⟨(h.seqs p).out, fun _ => (h.seqs p).idle nofun, (h.seqs p).drained⟩
    comps := fun c => ⟨(h.comps c).out, fun _ => (h.comps c).rest nofun⟩
    blocked := fun c _ => h.blocked c nofun }

/-- A position's own change counts as a consequence where it started from a state other than IDLE. -/
theorem Kept.closePos {p : Pos} (h : Kept (some p) y s t) (n : (s.seqs.get p).state ≠ .idle) : Kept x y s t :=
  { h with
    seqs := fun q =>
      ⟨(h.seqs q).out,
        fun _ e => (h.seqs q).idle (fun o => by simp only [Option.some.injEq] at o; subst o; exact n e) e,
        (h.seqs q).drained⟩ }

/-- Consequences keep the points safe while the trip latch is set, and make them safe when they set it. -/
theorem Loose.tripSafe (h : Loose s t) (e : s.TripSafe) : t.TripSafe := by
  intro l i m
  cases k : s.latched
  · exact h.newlySafe k l i m
  · exact h.safeAt k i (e k i (h.actuatorPoints_eq ▸ m))

/-- What a claim may say of every consequence. -/
theorem Loose.steady (h : Loose s t) : s.Steady t :=
  ⟨h.tables, h.sales, h.live_eq, h.reactions, h.events.enable, h.ring.strap, h.time, h.pending⟩

theorem Kept.foldl {α : Type} (f : State → α → State) (hf : ∀ t a, Kept x y t (f t a)) (l : List α)
    (h : Kept x y s t) : Kept x y s (l.foldl f t) := by
  induction l generalizing t with
  | nil => exact h
  | cons a l ih => exact ih (h.trans (hf t a))

end Sys2Proof.Machine
end

