-- ==== Sys2Proof/Laws/KeptBlocks.lean ====
section
/-! SUPPORT. Updates of one block that keep the rest: the cases of `Kept` from which every later one is put together. -/

set_option Elab.async false

namespace Sys2Proof.Machine

variable {x : Option Pos} {y : Option Comp} {s t : State}

/-! ## One block at a time -/

theorem Kept.mapRing (h : Kept x y s t) {f : Ring → Ring} (hf : RingKept t.ring (f t.ring)) :
    Kept x y s (t.mapRing f) :=
  h.trans { (Kept.refl : Kept x y t t) with ring := hf }

theorem Kept.mapEvents (h : Kept x y s t) {f : EventUnit → EventUnit} (hf : EventsKept t.events (f t.events)) :
    Kept x y s (t.mapEvents f) :=
  h.trans { (Kept.refl : Kept x y t t) with events := hf }

theorem Kept.mapSales (h : Kept x y s t) {f : Sales → Sales} (hf : SalesKept t.sales (f t.sales))
    (hi : (f t.sales).intake = t.sales.intake := by rfl) : Kept x y s (t.mapSales f) :=
  h.trans { (Kept.refl : Kept x y t t) with sales := hf, intake := fun p => by rw [State.mapSales_sales, hi] }

theorem Kept.mapTables (h : Kept x y s t) {f : TableStore → TableStore} (hf : TablesKept t.tables (f t.tables)) :
    Kept x y s (t.mapTables f) := by
  have e : (t.mapTables f).site = t.site := by simp [State.site, hf.site]
  have n : ∀ i, (t.mapTables f).entry i = t.entry i := fun i => by simp [State.entry, e]
  refine h.trans { (Kept.refl : Kept x y t t) with tables := hf, blocked := fun c _ _ a => a, safeAt := ?_, newlySafe := ?_ }
  · intro _ i k a r ha hr
    exact k a r (n i ▸ ha) hr
  · intro l l'
    exact absurd (l'.symm.trans l) (by simp)

theorem Kept.handOvers (h : Kept x y s t) (l : List HandOver) : Kept x y s { t with handOvers := l } :=
  h.trans { (Kept.refl : Kept x y t t) with }

@[simp] theorem Kept.emit (h : Kept x y s t) (a : HandOver) : Kept x y s (t.emit a) :=
  h.trans { (Kept.refl : Kept x y t t) with }

@[simp] theorem Kept.setDraw (h : Kept x y s t) (p : Pos) (d : Draw) : Kept x y s (t.setDraw p d) :=
  h.trans { (Kept.refl : Kept x y t t) with }

/-- A change of a fill context by its state alone. -/
theorem Kept.mapSeqState (h : Kept x y s t) {p : Pos} {f : Seq → Seq}
    (hf : SeqKept (x = some p) (t.seqs.get p).state (f (t.seqs.get p)).state) : Kept x y s (t.mapSeq p f) := by
  refine h.trans { (Kept.refl : Kept x y t t) with seqs := fun q => ?_ }
  simp only [State.mapSeq_seqs, Six.get_modify]
  split
  · subst_vars; exact hf
  · exact .refl _ _

/-- A change of a fill context that leaves its state alone. -/
theorem Kept.mapSeq (h : Kept x y s t) {p : Pos} {f : Seq → Seq} (hf : ∀ q, (f q).state = q.state := by intro _; rfl) :
    Kept x y s (t.mapSeq p f) :=
  h.mapSeqState (by rw [hf]; exact .refl _ _)

theorem Kept.mapBank (h : Kept x y s t) {b : Bank} {f : BankLive → BankLive}
    (hf : ∀ l, (f l).state = l.state ∧ (f l).pressure = l.pressure := by intro _; exact ⟨rfl, rfl⟩) : Kept x y s (t.mapBank b f) := by
  refine h.trans { (Kept.refl : Kept x y t t) with banks := fun q => ?_ }
  simp only [State.mapBank_banks, Six.get_modify]
  split
  · exact hf _
  · exact ⟨rfl, rfl⟩

theorem Kept.mapCool (h : Kept x y s t) {f : Cooling → Cooling}
    (hf : ∀ c, (f c).band = c.band ∧ (f c).capacity = c.capacity := by intro _; exact ⟨rfl, rfl⟩) : Kept x y s (t.mapCool f) :=
  h.trans { (Kept.refl : Kept x y t t) with band := (hf _).1, capacity := (hf _).2 }

@[simp] theorem Kept.mapMonitor (h : Kept x y s t) (p : Pos) (f : Monitor → Monitor) : Kept x y s (t.mapMonitor p f) :=
  h.mapCool

/-- A change of the scheduler that leaves compressors and copies alone. -/
theorem Kept.mapSched (h : Kept x y s t) {f : Scheduler → Scheduler}
    (hf : ∀ d, (f d).comps = d.comps ∧ (f d).copies = d.copies := by intro _; exact ⟨rfl, rfl⟩) : Kept x y s (t.mapSched f) := by
  refine h.trans { (Kept.refl : Kept x y t t) with copies := (hf _).2, comps := fun c => ?_, blocked := fun c _ _ e => ?_ }
  · rw [State.mapSched_sched, (hf _).1]; exact .refl _ _
  · rw [State.mapSched_sched, (hf _).1]; exact e

/-- A change of a compressor's record. -/
theorem Kept.mapCompState (h : Kept x y s t) {c : Comp} {f : CompRecord → CompRecord}
    (hf : CompKept (y = some c) (t.sched.comps.get c) (f (t.sched.comps.get c)))
    (hb : y ≠ some c → t.startBlocked c = true → (t.sched.comps.get c).state = .stopped →
      (f (t.sched.comps.get c)).state = .stopped) : Kept x y s (t.mapComp c f) := by
  refine h.trans { (Kept.refl : Kept x y t t) with comps := fun d => ?_, blocked := fun d n b e => ?_ }
  · simp only [State.mapComp_sched, Two.get_modify]
    split
    · subst_vars; exact hf
    · exact .refl _ _
  · simp only [State.mapComp_sched, Two.get_modify]
    split
    · subst_vars; exact hb n b e
    · exact e

/-- A change of a compressor's record that leaves its state and its last stop and fault alone. -/
theorem Kept.mapComp (h : Kept x y s t) {c : Comp} {f : CompRecord → CompRecord}
    (hf : ∀ r, (f r).state = r.state ∧ (f r).lastStop = r.lastStop ∧ (f r).lastFault = r.lastFault := by
      intro _; exact ⟨rfl, rfl, rfl⟩) :
    Kept x y s (t.mapComp c f) :=
  h.mapCompState ⟨fun _ => ⟨(hf _).1, (hf _).2.2⟩, fun _ _ => hf _⟩ fun _ _ e => (hf _).1.trans e

/-! ## Point records -/

theorem getD_set {α : Type} (l : List α) (i j : Nat) (a d : α) :
    (l.set i a).getD j d = if i = j ∧ i < l.length then a else l.getD j d := by
  simp only [List.getD_eq_getElem?_getD, List.getElem?_set]
  split
  · split
    · simp_all
    · rw [if_neg (by omega)]
      subst_vars
      rw [List.getElem?_eq_none (by omega)]
  · rw [if_neg (by omega)]

theorem State.record_setRecord (s : State) (i j : Nat) (r : PointRecord) :
    (s.setRecord i r).record j = if i = j ∧ i < s.points.records.length then r else s.record j := by
  simp only [State.record, State.setRecord_points, getD_set]

theorem State.inRange_of_act {s : State} {i : Nat} {r : ActRecord} (h : s.act i = some r) :
    i < s.points.records.length := by
  refine Decidable.byContradiction fun n => ?_
  simp [State.act, State.record, List.getD_eq_getElem?_getD, List.getElem?_eq_none (Nat.not_lt.mp n)] at h

theorem State.record_of_act {s : State} {i : Nat} {r : ActRecord} (h : s.act i = some r) :
    s.record i = .actuator r := by
  unfold State.act at h
  split at h <;> simp_all

@[simp] theorem State.entry_setRecord (s : State) (i j : Nat) (r : PointRecord) :
    (s.setRecord i r).entry j = s.entry j := rfl

/-- An actuator record put in the place of another. -/
theorem State.act_setRecord {s : State} {i : Nat} {r : ActRecord} (h : s.act i = some r) (r' : ActRecord) (j : Nat) :
    (s.setRecord i (.actuator r')).act j = if i = j then some r' else s.act j := by
  unfold State.act
  rw [State.record_setRecord]
  have := State.inRange_of_act h
  by_cases c : i = j
  · subst c; simp [this]
  · simp [c]

/-- The record of an actuator point changed: while it is owned by SAFE its owner and effective value stay, or it is
given its safe value. -/
theorem Kept.setAct (h : Kept x y s t) {i : Nat} {r r' : ActRecord} (ha : t.act i = some r)
    (hs : t.latched = true → r.owner = .safe → r'.owner = .safe ∧
      (r'.effective = r.effective ∨ ∀ e, t.entry i = some e → r'.effective = e.safe)) :
    Kept x y s (t.setRecord i (.actuator r')) := by
  have l := State.inRange_of_act ha
  have lv : (t.setRecord i (.actuator r')).live = t.live := by
    funext j
    simp only [State.live, State.record_setRecord]
    by_cases c : i = j
    · subst c
      simp [l, State.record_of_act ha]
    · simp [c]
  refine h.trans { (Kept.refl : Kept x y t t) with points := ?_, blocked := ?_, safeAt := ?_, newlySafe := ?_ }
  · refine { PointsKept.refl t.points with length := by simp, records := fun j => ?_ }
    have := State.record_setRecord t i j (.actuator r')
    simp only [State.record] at this
    rw [this]
    split
    · rename_i c
      obtain ⟨rfl, _⟩ := c
      have := State.record_of_act ha
      simp only [State.record] at this
      rw [this]
      exact ⟨r', rfl⟩
    · exact .refl _
  · intro lt j k e a he hr
    rw [State.act_setRecord ha] at hr
    split at hr
    · subst_vars
      simp only [Option.some.injEq] at hr
      subst hr
      obtain ⟨k1, k2⟩ := k e r he ha
      obtain ⟨h1, h2⟩ := hs lt k1
      exact ⟨h1, h2.elim (fun h2 => h2.trans k2) fun h2 => h2 e he⟩
    · exact k e a he hr
  · intro l l'
    exact absurd (l'.symm.trans l) (by simp)
  · intro c _ _ e; exact e

/-! ## Ring port -/

theorem RingKept.arbitrate (a : Ring) : RingKept a a.arbitrate := by
  obtain ⟨st, fw, co, re, de, an, no, se, dr, di⟩ := a
  unfold Ring.arbitrate Ring.choose
  cases se with
  | some f => exact .refl _
  | none =>
    cases co with
    | cons c l => cases c <;> (constructor <;> simp [Ring.placesTaken])
    | nil =>
      cases fw with
      | cons c l => constructor <;> simp [Ring.placesTaken]
      | nil =>
        cases re with
        | cons c l => constructor <;> simp [Ring.placesTaken]; omega
        | nil =>
          cases no with
          | cons c l => constructor <;> simp [Ring.placesTaken]; omega
          | nil => exact .refl _

theorem RingKept.commands (a : Ring) (q : List CommandSlot) : RingKept a { a with commands := q } := by
  constructor <;> simp [Ring.placesTaken]

@[simp] theorem Kept.placeCommandSlot (h : Kept x y s t) (f : CommandSlot) : Kept x y s (t.placeCommandSlot f) := by
  unfold State.placeCommandSlot
  split
  · exact h.mapRing ((RingKept.commands _ _).trans (.arbitrate _))
  · exact h

@[simp] theorem Kept.placeTrip (h : Kept x y s t) (b : Bool) (c : Option TripCause) : Kept x y s (t.placeTrip b c) :=
  h.placeCommandSlot _

/-- A response joins the queue where it has a place. -/
theorem Kept.placeResponse (h : Kept x y s t) {f : Response} (hp : t.ring.hasPlace = true) :
    Kept x y s (t.placeResponse f) := by
  refine h.mapRing (.trans (b := { t.ring with responses := t.ring.responses ++ [f] }) ?_ (.arbitrate _))
  simp only [Ring.hasPlace, decide_eq_true_eq] at hp
  constructor <;> simp [Ring.placesTaken] at *
  omega

@[simp] theorem Kept.placeSale (h : Kept x y s t) (d : NodeAddr) (r : SaleRecord) : Kept x y s (t.placeSale d r) := by
  unfold State.placeSale
  split
  · rename_i c
    simp only [Bool.and_eq_true] at c
    exact h.placeResponse c.2
  · exact h

@[simp] theorem Kept.answerDeferred (h : Kept x y s t) (r : Result) : Kept x y s (t.answerDeferred r) := by
  unfold State.answerDeferred
  split
  · exact h
  · rename_i d e
    have k : ∀ f, RingKept t.ring { t.ring with deferred := none, responses := t.ring.responses ++ [f] } := by
      intro f
      constructor <;> simp [Ring.placesTaken, e]
    exact h.mapRing (f := fun r' =>
      { r' with deferred := none, responses := r'.responses ++ [Response.mresp d.dst d.tag 33 r false .none] }.arbitrate)
      ((k _).trans (.arbitrate _))

/-! ## Event unit -/

@[simp] theorem Kept.placeNotice (h : Kept x y s t) (n : Notice) : Kept x y s (t.placeNotice n) := by
  unfold State.placeNotice
  split
  · rename_i c
    simp only [Bool.and_eq_true, decide_eq_true_eq] at c
    refine h.mapRing (.trans (b := { t.ring with notices := t.ring.notices ++ [n] }) ?_ (.arbitrate _))
    constructor <;> simp [Ring.placesTaken]
    omega
  · exact h

theorem EventsKept.setAt (a : EventUnit) (i : Nat) (f : Flag) : EventsKept a { a with flags := a.flags.set i (some f) } where
  enable := rfl
  length := by simp
  set j e := by
    simp only [getD_set]
    split
    · rfl
    · exact e

@[simp] theorem Kept.setFlag (h : Kept x y s t) (k : EventKind) (sc : EventScope) (d : Detail) :
    Kept x y s (t.setFlag k sc d) := by
  unfold State.setFlag
  split
  · exact h.mapEvents (.setAt _ _ _)
  · have := h.mapEvents (f := fun e => { e with flags := e.flags.set (flagIndex k sc) (some ⟨d, 1⟩) }) (.setAt _ _ _)
    dsimp only
    split
    · exact this.placeNotice _
    · exact this

/-! ## Actuators -/

@[simp] theorem Kept.settled (h : Kept x y s t) (i : Nat) (e : PointEntry) : Kept x y s (t.settled i e) := by
  unfold State.settled
  split
  · split <;> simp [h]
  · simp [h]
  · exact h

theorem Kept.compareEffective (h : Kept x y s t) {i : Nat} {e : PointEntry} {r r0 : ActRecord} (ha : t.act i = some r0)
    (ho : r.owner = r0.owner) (he : r.effective = r0.effective) : Kept x y s (t.compareEffective i e r) := by
  have k : ∀ m d, Kept x y s (t.setRecord i (.actuator { r with matching := m, discrepancy := d })) := fun m d =>
    h.setAct ha fun _ o => ⟨ho.trans o, .inl he⟩
  unfold State.compareEffective
  split
  · exact (k _ _).settled _ _
  · split
    · exact k r.matching r.discrepancy
    · exact k _ _

theorem Kept.compareFeedback (h : Kept x y s t) {i : Nat} {e : PointEntry} {r : ActRecord} (ha : t.act i = some r) :
    Kept x y s (t.compareFeedback i e r) := by
  have k : ∀ m d, Kept x y s (t.setRecord i (.actuator { r with matching := m, discrepancy := d })) := fun m d =>
    h.setAct ha fun _ o => ⟨o, .inl rfl⟩
  unfold State.compareFeedback
  split <;> split
  · exact h
  · exact (k _ _).settled _ _
  · exact k _ _
  · exact h

@[simp] theorem Kept.freshMatch (h : Kept x y s t) (i : Nat) : Kept x y s (t.freshMatch i) := by
  unfold State.freshMatch
  split
  · rename_i e r _ ha
    split <;> exact h.setAct ha fun _ o => ⟨o, .inl rfl⟩
  · exact h

@[simp] theorem Kept.placeCommand (h : Kept x y s t) (i : Nat) : Kept x y s (t.placeCommand i) := by
  unfold State.placeCommand
  split
  · rename_i e r _ ha
    exact (h.setAct (r' := { r with refresh := t.after e.refresh }) ha fun _ o => ⟨o, .inl rfl⟩).placeCommandSlot _
  · exact h

@[simp] theorem Kept.noteFillValve (h : Kept x y s t) (e : PointEntry) (v : Int) : Kept x y s (t.noteFillValve e v) := by
  unfold State.noteFillValve
  split
  · split
    · refine h.trans { (Kept.refl : Kept x y t t) with sales := ?_, intake := fun q => ?_ }
      · exact { SalesKept.refl t.sales with }
      · simp only [State.mapSales_sales, Six.get_modify]
        split <;> rfl
    · exact h
  · exact h

@[simp] theorem State.noteFillValve_points (s : State) (e : PointEntry) (v : Int) :
    (s.noteFillValve e v).points = s.points := by
  unfold State.noteFillValve
  split
  · split <;> rfl
  · rfl

@[simp] theorem State.noteFillValve_tables (s : State) (e : PointEntry) (v : Int) :
    (s.noteFillValve e v).tables = s.tables := by
  unfold State.noteFillValve
  split
  · split <;> rfl
  · rfl

@[simp] theorem State.placeCommandSlot_points (s : State) (f : CommandSlot) : (s.placeCommandSlot f).points = s.points := by
  unfold State.placeCommandSlot
  split <;> rfl

/-- What placing a command leaves of an actuator record: all but its refresh deadline. -/
theorem State.act_placeCommand {s : State} {i : Nat} {r : ActRecord} (h : s.act i = some r) :
    ∃ d, (s.placeCommand i).act i = some { r with refresh := d } := by
  unfold State.placeCommand
  cases he : s.entry i with
  | none => exact ⟨r.refresh, h⟩
  | some e =>
    refine ⟨s.after e.refresh, ?_⟩
    simp only [h]
    have := State.act_setRecord h { r with refresh := s.after e.refresh } i
    unfold State.act State.record at this ⊢
    simpa using this

theorem Kept.setEffective (h : Kept x y s t) {i : Nat} {v : Int}
    (hv : t.latched = true → ∀ e r, t.entry i = some e → t.act i = some r → r.owner = .safe → v = e.safe) :
    Kept x y s (t.setEffective i v) := by
  unfold State.setEffective
  split
  · rename_i e r he ha
    split
    · exact h
    · have k : Kept x y s ((t.setRecord i (.actuator { r with effective := v })).noteFillValve e v) :=
        (h.setAct (r' := { r with effective := v }) ha fun l o => ⟨o, .inr fun e' he' => by
          rw [he] at he'; cases he'; exact hv l e r he ha o⟩).noteFillValve _ _
      dsimp only
      have a : ((t.setRecord i (.actuator { r with effective := v })).noteFillValve e v).act i =
          some { r with effective := v } := by
        have := State.act_setRecord ha { r with effective := v } i
        simpa [State.act, State.record] using this
      obtain ⟨d, hd⟩ := State.act_placeCommand a
      rw [hd]
      exact (k.placeCommand i).compareEffective hd rfl rfl
  · exact h

theorem State.ownerOf_latched {s : State} (l : s.latched = true) (e : PointEntry) : s.ownerOf e = .safe := by
  simp [State.ownerOf, l]

@[simp] theorem Kept.resolvePoint (h : Kept x y s t) (i : Nat) : Kept x y s (t.resolvePoint i) := by
  unfold State.resolvePoint
  split
  · rename_i e r he ha
    dsimp only
    have k : Kept x y s (t.setRecord i (.actuator { r with claimed := t.claims e, owner := t.ownerOf e })) :=
      h.setAct ha fun l _ => ⟨State.ownerOf_latched l e, .inl rfl⟩
    refine k.setEffective fun l e' r' he' _ _ => ?_
    rw [State.entry_setRecord, he] at he'
    cases he'
    rw [show t.ownerOf e = .safe from State.ownerOf_latched l e]
    rfl
  · exact h

@[simp] theorem Kept.resolvePoints (h : Kept x y s t) (l : List Nat) : Kept x y s (t.resolvePoints l) :=
  h.trans (Kept.foldl _ (fun _ a => Kept.refl.resolvePoint a) l .refl)

@[simp] theorem Kept.writeAuto (h : Kept x y s t) (i : Nat) (v : Int) : Kept x y s (t.writeAuto i v) := by
  unfold State.writeAuto
  split
  · rename_i e r he ha
    dsimp only
    have k : Kept x y s (t.setRecord i (.actuator { r with auto := t.autoStored e v })) :=
      h.setAct ha fun _ o => ⟨o, .inl rfl⟩
    split
    · rename_i o
      refine k.setEffective fun _ e' r' _ ha' o' => ?_
      rw [State.act_setRecord ha, if_pos rfl] at ha'
      cases ha'
      simp [o] at o'
    · exact k
  · exact h

@[simp] theorem Kept.writeOpen (h : Kept x y s t) (i : Option Nat) (b : Bool) : Kept x y s (t.writeOpen i b) := by
  unfold State.writeOpen
  split
  · exact h
  · split
    · exact h
    · exact h.writeAuto _ _

@[simp] theorem Kept.writeFill (h : Kept x y s t) (p : Pos) (v : Nat) : Kept x y s (t.writeFill p v) := by
  unfold State.writeFill
  split
  · exact h
  · exact h.writeAuto _ _

@[simp] theorem Kept.writeVent (h : Kept x y s t) (p : Pos) (b : Bool) : Kept x y s (t.writeVent p b) := h.writeOpen _ _

@[simp] theorem Kept.writeBankValve (h : Kept x y s t) (p : Pos) (b : Bank) (o : Bool) :
    Kept x y s (t.writeBankValve p b o) := h.writeOpen _ _

@[simp] theorem Kept.writeDischarge (h : Kept x y s t) (c : Comp) (b : Bank) (o : Bool) :
    Kept x y s (t.writeDischarge c b o) := h.writeOpen _ _

@[simp] theorem Kept.writeRun (h : Kept x y s t) (c : Comp) (o : Bool) : Kept x y s (t.writeRun c o) := h.writeOpen _ _

end Sys2Proof.Machine
end

