-- ==== Sys2Proof/Laws/KeptTrip.lean ====
section
/-! SUPPORT. The station trip and the sales unit keep what `Kept` says, and setting the trip latch makes every actuator
point safe. -/

set_option Elab.async false

namespace Sys2Proof.Machine

variable {x : Option Pos} {y : Option Comp} {s t : State}

/-! ## The effective value of a point after it is set -/

@[simp] theorem State.settled_points (s : State) (i : Nat) (e : PointEntry) : (s.settled i e).points = s.points := by
  unfold State.settled
  split
  · split <;> rfl
  · rfl
  · rfl

theorem State.act_congr {s t : State} (h : t.points = s.points) (i : Nat) : t.act i = s.act i := by
  simp [State.act, State.record, h]

theorem State.act_compareEffective {s : State} {i : Nat} {r0 : ActRecord} (h : s.act i = some r0) (e : PointEntry)
    (r : ActRecord) :
    ∃ m d, (s.compareEffective i e r).act i = some { r with matching := m, discrepancy := d } := by
  have k : ∀ m d, (s.setRecord i (.actuator { r with matching := m, discrepancy := d })).act i =
      some { r with matching := m, discrepancy := d } := fun m d => by rw [State.act_setRecord h, if_pos rfl]
  unfold State.compareEffective
  split
  · exact ⟨.matched, none, by rw [State.act_congr (State.settled_points _ _ _), k]⟩
  · split
    · exact ⟨r.matching, r.discrepancy, k r.matching r.discrepancy⟩
    · exact ⟨_, _, k _ _⟩

/-- A set effective value stands in the record, whose owner and job values stay. -/
theorem State.act_setEffective {s : State} {i : Nat} {e : PointEntry} {r : ActRecord} (he : s.entry i = some e)
    (h : s.act i = some r) (v : Int) :
    ∃ f m d, (s.setEffective i v).act i =
      some { r with effective := v, refresh := f, matching := m, discrepancy := d } := by
  unfold State.setEffective
  simp only [he, h]
  split
  · rename_i c
    exact ⟨r.refresh, r.matching, r.discrepancy, by rw [h, ← c]⟩
  · have a : ((s.setRecord i (.actuator { r with effective := v })).noteFillValve e v).act i =
        some { r with effective := v } := by
      rw [State.act_congr (State.noteFillValve_points _ _ _), State.act_setRecord h, if_pos rfl]
    obtain ⟨f, hf⟩ := State.act_placeCommand a
    rw [hf]
    obtain ⟨m, d, k⟩ := State.act_compareEffective hf e { r with effective := v, refresh := f }
    exact ⟨f, m, d, k⟩

/-- A point resolved while the trip latch is set is safe (R23, R24). -/
theorem State.safeAt_resolvePoint {s : State} (l : s.latched = true) (i : Nat) : (s.resolvePoint i).SafeAt i := by
  intro e r he hr
  rw [(Kept.refl (x := none) (y := none) |>.resolvePoint i).entry_eq] at he
  unfold State.resolvePoint at hr
  cases ha : s.act i with
  | none => simp [he, ha] at hr
  | some r0 =>
    simp only [he, ha, State.ownerOf_latched l e] at hr
    have k := State.act_setRecord ha { r0 with claimed := s.claims e, owner := .safe } i
    rw [if_pos rfl] at k
    obtain ⟨f, m, d, q⟩ := State.act_setEffective (he := (State.entry_setRecord _ _ _ _).trans he) k e.safe
    change (State.setEffective _ i e.safe).act i = some r at hr
    rw [q] at hr
    cases hr
    exact ⟨rfl, rfl⟩

theorem State.safeAt_resolvePoints {s : State} (l : s.latched = true) {i : Nat} {q : List Nat} (m : i ∈ q) :
    (s.resolvePoints q).SafeAt i := by
  induction q generalizing s with
  | nil => simp at m
  | cons j q ih =>
    have k : Kept none none s (s.resolvePoint j) := Kept.refl.resolvePoint j
    have l' := k.latched_of l
    rcases List.mem_cons.mp m with rfl | m
    · have n : Kept none none (s.resolvePoint i) ((s.resolvePoint i).resolvePoints q) := Kept.refl.resolvePoints q
      exact n.safeAt l' i (State.safeAt_resolvePoint l i)
    · exact ih l' m

/-! ## The trip (R33 to R38) -/

/-- The trip latch set where it was clear. -/
theorem Kept.latchTrip (h : Kept x y s t) (c : t.points.trip = .clear) (cause : TripCause) (raiser : Option Pos) :
    Kept x y s (t.latchTrip cause raiser) := by
  have nl : t.latched = false := by simp [State.latched, c]
  have k : Kept x y (t.mapPoints fun u => { u with trip := .latched, cause := some cause, settle := none })
      ((t.mapPoints fun u => { u with trip := .latched, cause := some cause, settle := none }).resolvePoints
        (t.mapPoints fun u => { u with trip := .latched, cause := some cause, settle := none }).actuatorPoints) :=
    Kept.refl.resolvePoints _
  have m : Kept x y t ((t.mapPoints fun u => { u with trip := .latched, cause := some cause, settle := none }).resolvePoints
      (t.mapPoints fun u => { u with trip := .latched, cause := some cause, settle := none }).actuatorPoints) := by
    refine { k with points := ?_, blocked := ?_, safeAt := ?_, newlySafe := ?_ }
    · exact { k.points with
        latched := fun e => by simp [c] at e
        set := fun e => absurd c e
        notSettling := fun _ => by rw [(k.points.latched rfl).1]; simp }
    · exact fun e => by simp [nl] at e
    · intro _ _ i mi
      rw [k.actuatorPoints_eq] at mi
      exact State.safeAt_resolvePoints rfl mi
    · exact fun d n _ e => k.blocked d n rfl e
  unfold State.latchTrip
  dsimp only
  refine Kept.emit ?_ _
  refine Kept.foldl _ (fun u p => ?_) _ (((h.trans m).placeTrip _ _).setFlag _ _ _)
  split
  · exact .refl
  · exact Kept.refl.emit _

/-- A settle in progress ends with the latch set. -/
theorem Kept.endSettle (h : Kept x y s t) (c : t.points.trip = .settling) (r : Result) : Kept x y s (t.endSettle r) := by
  refine Kept.answerDeferred (h.trans ?_) r
  refine { (Kept.refl : Kept x y t t) with points := ?_, blocked := fun d _ _ e => e, newlySafe := ?_ }
  · exact { PointsKept.refl t.points with
      latched := fun e => by simp [c] at e
      set := fun _ => by simp
      notSettling := fun e => absurd c e }
  · intro e
    simp [State.latched, c] at e

@[simp] theorem Kept.tripSource (h : Kept x y s t) (cause : TripCause) (raiser : Option Pos) :
    Kept x y s (t.tripSource cause raiser) := by
  unfold State.tripSource
  split
  · exact h.latchTrip ‹_› _ _
  · exact h
  · exact h.endSettle ‹_› _

@[simp] theorem Kept.examineTrip (h : Kept x y s t) : Kept x y s t.examineTrip := by
  unfold State.examineTrip
  split
  · rename_i c
    split
    · exact h.latchTrip c _ _
    · split
      · exact h.latchTrip c _ _
      · exact h
  · exact h

/-! ## Sales (R65, R66, R174 to R179) -/

theorem TablesKept.mapBinds (a : TableStore) (b : Bind) (f : Nat → Nat) : TablesKept a (a.mapBinds b f) := by
  have k : ∀ (k : KindStore) id, (k.mapBinds id f).unbound = k.unbound := fun k id => by cases id <;> rfl
  exact ⟨k _ _, k _ _, k _ _, rfl⟩

@[simp] theorem Kept.releaseBind (h : Kept x y s t) (b : Bind) : Kept x y s (t.releaseBind b) := h.mapTables (.mapBinds _ _ _)

@[simp] theorem Kept.bindRecord (h : Kept x y s t) (b : Bind) : Kept x y s (t.bindRecord b) := h.mapTables (.mapBinds _ _ _)

theorem Kept.mapContract (h : Kept x y s t) {i : Nat} {f : Contract → Contract} (hf : ∀ c, (f c).id = c.id) :
    Kept x y s (t.mapContract i f) := by
  refine h.mapSales { SalesKept.refl t.sales with contracts := ?_ }
  simp only [List.map_map]
  congr 1
  funext c
  simp only [Function.comp]
  split <;> simp [hf]

/-- The record in a position's log slot is not CLOSED (R176). -/
theorem State.logAt_of_recordSlot {s : State} {p : Pos} {i : Nat} (h : s.recordSlot p = some i) :
    ∃ r, s.logAt i = some r ∧ r.position = p ∧ r.state ≠ .closed := by
  unfold State.recordSlot at h
  rw [List.findIdx?_eq_some_iff_getElem] at h
  obtain ⟨hi, h, _⟩ := h
  cases hr : s.sales.log[i] with
  | none => simp [hr] at h
  | some r =>
    simp only [hr, Option.any_some, Bool.and_eq_true, beq_iff_eq, bne_iff_ne] at h
    exact ⟨r, by simp [State.logAt, hi, hr], h⟩

/-- A record of a position that is not CLOSED changed, closed or freed. -/
theorem Kept.setLog (h : Kept x y s t) {p : Pos} {i : Nat} (hi : t.recordSlot p = some i) (r : Option SaleRecord) :
    Kept x y s (t.setLog i r) := by
  obtain ⟨r0, h0, _, hc⟩ := State.logAt_of_recordSlot hi
  unfold State.logAt at h0
  refine h.mapSales { SalesKept.refl t.sales with length := by simp, free := fun j e => ?_, closed := fun j r' e k => ?_ }
  · simp only [getD_set]
    split
    · rename_i c
      rw [← c.1, h0] at e
      cases e
    · exact e
  · simp only [getD_set]
    split
    · rename_i c
      rw [← c.1, h0] at e
      cases e
      exact absurd k hc
    · exact e

@[simp] theorem Kept.mapSale (h : Kept x y s t) (p : Pos) (f : SaleRecord → SaleRecord) : Kept x y s (t.mapSale p f) := by
  unfold State.mapSale
  split
  · exact h.setLog ‹_› _
  · exact h

@[simp] theorem Kept.openRecord (h : Kept x y s t) (p : Pos) : Kept x y s (t.openRecord p) := h.mapSale _ _

@[simp] theorem Kept.markSuspect (h : Kept x y s t) (p : Pos) : Kept x y s (t.markSuspect p) := h.mapSale _ _

theorem SalesKept.pushClosure (a : Sales) (i : Nat) : SalesKept a { a with closure := a.closure ++ [i] } :=
  { SalesKept.refl a with closure := List.prefix_append _ _ }

@[simp] theorem Kept.closeRecord (h : Kept x y s t) (p : Pos) (w : EndReason) (c : Option Condition) :
    Kept x y s (t.closeRecord p w c) := by
  unfold State.closeRecord
  split
  · rename_i i r hi _
    dsimp only
    refine Kept.setFlag ?_ _ _ _
    have k : ∀ r, Kept x y s (((t.setLog i (some r)).mapSales fun u =>
        { u with closure := u.closure ++ [i] }).releaseBind r.bind) := fun r =>
      ((h.setLog hi _).mapSales (.pushClosure _ _)).releaseBind _
    split <;> (split <;> simp only [Kept.placeSale, k, Kept.mapContract, Contract.charge, implies_true])
  · exact h

@[simp] theorem Kept.freeRecord (h : Kept x y s t) (p : Pos) (w : EndReason) (b : Bool) :
    Kept x y s (t.freeRecord p w b) := by
  unfold State.freeRecord
  split
  · rename_i i r hi _
    dsimp only
    have k : ∀ u, Kept x y s u → u.sales.log = t.sales.log → Kept x y s ((u.releaseBind r.bind).setLog i none) :=
      fun u hu e => (hu.releaseBind _).setLog (p := p) (by
        have : (u.releaseBind r.bind).sales.log = t.sales.log := e
        rw [State.recordSlot, this]
        exact hi) _
    have m : ∀ id, Kept x y s (t.mapContract id fun c => { c with reserved := c.reserved - r.reservation.getD 0 }) :=
      fun id => h.mapContract fun _ => rfl
    split <;> split
    · exact (k _ (m _) rfl).placeSale _ _
    · exact (k _ h rfl).placeSale _ _
    · exact k _ (m _) rfl
    · exact k _ h rfl
  · exact h

@[simp] theorem Kept.endRecord (h : Kept x y s t) (p : Pos) (w : EndReason) (c : Option Condition) :
    Kept x y s (t.endRecord p w c) := by
  unfold State.endRecord
  split
  · split
    · exact h.closeRecord _ _ _
    · exact h.freeRecord _ _ _
  · exact h

end Sys2Proof.Machine
end

