-- ==== Sys2Proof/Laws/Seqs.lean ====
section
/-! SUPPORT. Every operation below the position sequencer leaves the fill contexts as they are. -/

set_option Elab.async false

namespace Sys2Proof.Machine

variable (s : State)

theorem foldl_seqs {α : Type} (f : State → α → State) (hf : ∀ s a, (f s a).seqs = s.seqs) (l : List α) (s : State) :
    (l.foldl f s).seqs = s.seqs := by
  induction l generalizing s with
  | nil => rfl
  | cons a l ih => exact (ih _).trans (hf _ _)

@[simp] theorem State.placeCommandSlot_seqs (f : CommandSlot) : (s.placeCommandSlot f).seqs = s.seqs := by
  unfold State.placeCommandSlot; split <;> rfl

@[simp] theorem State.placeTrip_seqs (b : Bool) (c : Option TripCause) : (s.placeTrip b c).seqs = s.seqs :=
  s.placeCommandSlot_seqs _

@[simp] theorem State.placeResponse_seqs (f : Response) : (s.placeResponse f).seqs = s.seqs := rfl

@[simp] theorem State.placeSale_seqs (d : NodeAddr) (r : SaleRecord) : (s.placeSale d r).seqs = s.seqs := by
  unfold State.placeSale; split <;> rfl

@[simp] theorem State.answerDeferred_seqs (r : Result) : (s.answerDeferred r).seqs = s.seqs := by
  unfold State.answerDeferred; split <;> rfl

@[simp] theorem State.placeNotice_seqs (n : Notice) : (s.placeNotice n).seqs = s.seqs := by
  unfold State.placeNotice; split <;> rfl

@[simp] theorem State.setFlag_seqs (k : EventKind) (sc : EventScope) (d : Detail) : (s.setFlag k sc d).seqs = s.seqs := by
  unfold State.setFlag; split
  · rfl
  · dsimp only; split <;> simp

@[simp] theorem State.settled_seqs (i : Nat) (e : PointEntry) : (s.settled i e).seqs = s.seqs := by
  unfold State.settled; split
  · split <;> rfl
  · rfl
  · rfl

@[simp] theorem State.compareEffective_seqs (i : Nat) (e : PointEntry) (r : ActRecord) :
    (s.compareEffective i e r).seqs = s.seqs := by
  unfold State.compareEffective; split
  · simp
  · split <;> rfl

@[simp] theorem State.placeCommand_seqs (i : Nat) : (s.placeCommand i).seqs = s.seqs := by
  unfold State.placeCommand; split <;> simp

@[simp] theorem State.noteFillValve_seqs (e : PointEntry) (v : Int) : (s.noteFillValve e v).seqs = s.seqs := by
  unfold State.noteFillValve; split
  · split <;> rfl
  · rfl

@[simp] theorem State.setEffective_seqs (i : Nat) (v : Int) : (s.setEffective i v).seqs = s.seqs := by
  unfold State.setEffective; split
  · split
    · rfl
    · dsimp only; split <;> simp
  · rfl

@[simp] theorem State.resolvePoint_seqs (i : Nat) : (s.resolvePoint i).seqs = s.seqs := by
  unfold State.resolvePoint; split <;> simp

@[simp] theorem State.resolvePoints_seqs (l : List Nat) : (s.resolvePoints l).seqs = s.seqs :=
  foldl_seqs _ State.resolvePoint_seqs _ _

@[simp] theorem State.writeAuto_seqs (i : Nat) (v : Int) : (s.writeAuto i v).seqs = s.seqs := by
  unfold State.writeAuto; split
  · dsimp only; split <;> simp
  · rfl

@[simp] theorem State.writeOpen_seqs (i : Option Nat) (b : Bool) : (s.writeOpen i b).seqs = s.seqs := by
  unfold State.writeOpen; split
  · rfl
  · split <;> simp

@[simp] theorem State.writeFill_seqs (p : Pos) (v : Nat) : (s.writeFill p v).seqs = s.seqs := by
  unfold State.writeFill; split <;> simp

@[simp] theorem State.writeVent_seqs (p : Pos) (b : Bool) : (s.writeVent p b).seqs = s.seqs := s.writeOpen_seqs _ _

@[simp] theorem State.writeBankValve_seqs (p : Pos) (b : Bank) (o : Bool) : (s.writeBankValve p b o).seqs = s.seqs :=
  s.writeOpen_seqs _ _

@[simp] theorem State.writeDischarge_seqs (c : Comp) (b : Bank) (o : Bool) : (s.writeDischarge c b o).seqs = s.seqs :=
  s.writeOpen_seqs _ _

@[simp] theorem State.writeRun_seqs (c : Comp) (o : Bool) : (s.writeRun c o).seqs = s.seqs := s.writeOpen_seqs _ _

@[simp] theorem State.latchTrip_seqs (c : TripCause) (p : Option Pos) : (s.latchTrip c p).seqs = s.seqs := by
  unfold State.latchTrip
  simp only [State.emit_seqs]
  rw [foldl_seqs _ (fun s q => by split <;> rfl)]
  simp

@[simp] theorem State.endSettle_seqs (r : Result) : (s.endSettle r).seqs = s.seqs := by
  unfold State.endSettle; simp

@[simp] theorem State.tripSource_seqs (c : TripCause) (p : Option Pos) : (s.tripSource c p).seqs = s.seqs := by
  unfold State.tripSource; split <;> simp

@[simp] theorem State.releaseBind_seqs (b : Bind) : (s.releaseBind b).seqs = s.seqs := rfl

@[simp] theorem State.mapContract_seqs (i : Nat) (f : Contract → Contract) : (s.mapContract i f).seqs = s.seqs := rfl

@[simp] theorem State.mapSale_seqs (p : Pos) (f : SaleRecord → SaleRecord) : (s.mapSale p f).seqs = s.seqs := by
  unfold State.mapSale; split <;> rfl

@[simp] theorem State.closeRecord_seqs (p : Pos) (w : EndReason) (c : Option Condition) :
    (s.closeRecord p w c).seqs = s.seqs := by
  unfold State.closeRecord; split
  · dsimp only
    split <;> split <;> simp
  · rfl

@[simp] theorem State.freeRecord_seqs (p : Pos) (w : EndReason) (b : Bool) : (s.freeRecord p w b).seqs = s.seqs := by
  unfold State.freeRecord; split
  · dsimp only
    split <;> split <;> simp
  · rfl

@[simp] theorem State.endRecord_seqs (p : Pos) (w : EndReason) (c : Option Condition) :
    (s.endRecord p w c).seqs = s.seqs := by
  unfold State.endRecord; split
  · split <;> simp
  · rfl

@[simp] theorem State.openRecord_seqs (p : Pos) : (s.openRecord p).seqs = s.seqs := s.mapSale_seqs _ _

@[simp] theorem State.claimBank_seqs (p : Pos) (b : Bank) (i : Nat) : (s.claimBank p b i).seqs = s.seqs := by
  unfold State.claimBank; simp

@[simp] theorem State.leavePort_seqs (p : Pos) (b : Bank) : (s.leavePort p b).seqs = s.seqs := by
  unfold State.leavePort; simp

@[simp] theorem State.joinWait_seqs (p : Pos) (b : Bank) (i : Nat) : (s.joinWait p b i).seqs = s.seqs := rfl

@[simp] theorem State.withdraw_seqs (p : Pos) : (s.withdraw p).seqs = s.seqs := by
  unfold State.withdraw; split <;> simp

theorem State.switchTest_seqs (p : Pos) (n : Int) : (s.switchTest p n).2.seqs = s.seqs := by
  unfold State.switchTest; split
  · rfl
  · split
    · rfl
    · simp; split <;> simp
    · simp; split <;> simp

@[simp] theorem State.endItem_seqs : s.endItem.seqs = s.seqs := by unfold State.endItem; split <;> rfl

@[simp] theorem State.requestCooling_seqs (r : CoolRequest) : (s.requestCooling r).seqs = s.seqs := by
  unfold State.requestCooling; split
  · rfl
  · exact State.endItem_seqs _

@[simp] theorem State.leaveCooling_seqs (h : Holder) : (s.leaveCooling h).seqs = s.seqs := by
  unfold State.leaveCooling; dsimp only; split
  · split <;> rfl
  · exact State.endItem_seqs _

@[simp] theorem State.recomputeSetpoint_seqs : s.recomputeSetpoint.seqs = s.seqs := by
  unfold State.recomputeSetpoint; split
  · rfl
  · dsimp only; split <;> simp

@[simp] theorem State.stopMonitor_seqs (p : Pos) : (s.stopMonitor p).seqs = s.seqs := rfl

@[simp] theorem State.startSettle_seqs (p : Pos) : (s.startSettle p).seqs = s.seqs := rfl

@[simp] theorem State.monitorCategory_seqs (p : Pos) : (s.monitorCategory p).seqs = s.seqs := by
  unfold State.monitorCategory; dsimp only; split <;> rfl

end Sys2Proof.Machine
end

