-- ==== Sys2Proof/Laws/KeptFill.lean ====
section
/-! SUPPORT. The bank selector's draws, the cooling allocator's table and the position sequencer keep what `Kept`
says. -/

set_option Elab.async false

namespace Sys2Proof.Machine

variable {x : Option Pos} {y : Option Comp} {s t : State}

/-! ## Draws (chapter 8) -/

@[simp] theorem Kept.claimBank (h : Kept x y s t) (p : Pos) (b : Bank) (i : Nat) : Kept x y s (t.claimBank p b i) := by
  unfold State.claimBank
  dsimp only
  exact (h.mapBank.setDraw _ _).writeBankValve _ _ _

@[simp] theorem Kept.leavePort (h : Kept x y s t) (p : Pos) (b : Bank) : Kept x y s (t.leavePort p b) := by
  unfold State.leavePort
  dsimp only
  exact (h.mapBank.writeBankValve _ _ _).emit _

@[simp] theorem Kept.joinWait (h : Kept x y s t) (p : Pos) (b : Bank) (i : Nat) : Kept x y s (t.joinWait p b i) := by
  unfold State.joinWait
  dsimp only
  exact h.mapBank.setDraw _ _

@[simp] theorem Kept.withdraw (h : Kept x y s t) (p : Pos) : Kept x y s (t.withdraw p) := by
  unfold State.withdraw
  split
  · exact (h.setDraw _ _).leavePort _ _
  · exact h.mapBank.setDraw _ _
  · exact h.setDraw _ _

theorem Kept.switchTest (h : Kept x y s t) (p : Pos) (n : Int) : Kept x y s (t.switchTest p n).2 := by
  unfold State.switchTest
  split
  · exact h
  · split
    · exact h
    · dsimp only; split <;> simp [h]
    · dsimp only; split <;> simp [h]

/-! ## Cooling (chapter 10) -/

@[simp] theorem Kept.endItem (h : Kept x y s t) : Kept x y s t.endItem := by
  unfold State.endItem
  split
  · exact h
  · exact h.emit _

@[simp] theorem Kept.placeRequest (h : Kept x y s t) (r : CoolRequest) : Kept x y s (t.placeRequest r) := h.mapCool

@[simp] theorem Kept.removeEntry (h : Kept x y s t) (a : Holder) : Kept x y s (t.removeEntry a) := h.mapCool

@[simp] theorem Kept.requestCooling (h : Kept x y s t) (r : CoolRequest) : Kept x y s (t.requestCooling r) := by
  unfold State.requestCooling
  split
  · exact h.emit _
  · exact (h.placeRequest _).endItem

@[simp] theorem Kept.leaveCooling (h : Kept x y s t) (a : Holder) : Kept x y s (t.leaveCooling a) := by
  unfold State.leaveCooling
  have k : Kept x y s (t.mapCool fun c => { c with queue := c.queue.filter fun r => r.holder != a }) := h.mapCool
  dsimp only
  split
  · split
    · exact k.emit _
    · exact k
  · exact (k.removeEntry _).endItem

@[simp] theorem Kept.mapAlloc (h : Kept x y s t) (a : Holder) (f : Alloc → Alloc) : Kept x y s (t.mapAlloc a f) :=
  h.mapCool

@[simp] theorem Kept.setAllocCritical (h : Kept x y s t) (c : Comp) (b : Bool) : Kept x y s (t.setAllocCritical c b) :=
  h.mapAlloc _ _

@[simp] theorem Kept.recomputeSetpoint (h : Kept x y s t) : Kept x y s t.recomputeSetpoint := by
  unfold State.recomputeSetpoint
  split
  · exact h
  · have k : ∀ b, Kept x y s (t.mapCool fun c => { c with fromScan := b }) := fun b => h.mapCool
    dsimp only
    split <;> simp [k]

@[simp] theorem Kept.stopMonitor (h : Kept x y s t) (p : Pos) : Kept x y s (t.stopMonitor p) := h.mapMonitor _ _

@[simp] theorem Kept.startSettle (h : Kept x y s t) (p : Pos) : Kept x y s (t.startSettle p) := h.mapMonitor _ _

@[simp] theorem Kept.monitorCategory (h : Kept x y s t) (p : Pos) : Kept x y s (t.monitorCategory p) := by
  unfold State.monitorCategory
  dsimp only
  split <;> simp [h]

@[simp] theorem Kept.leaveAll (h : Kept x y s t) (p : Pos) : Kept x y s (t.leaveAll p) := (h.leaveCooling _).withdraw _

/-! ## Changes of a position's state (chapter 5) -/

/-- A position before its vent may go anywhere. -/
theorem SeqKept.ofBefore {own : Prop} {a b : PosState} (h : a.beforeVent = true) : SeqKept own a b := by
  cases a <;> first | (exact absurd h (by decide)) | (constructor <;> simp [h])

/-- VENT and DONE lead to no state before a vent. -/
theorem SeqKept.ofAfter {own : Prop} {a b : PosState} (h : a = .vent ∨ a = .done) (k : b.beforeVent = false) :
    SeqKept own a b := by
  rcases h with rfl | rfl <;> (constructor <;> simp [k])

theorem PosState.beforeVent_of_flowing {a : PosState} (h : a.flowing = true) : a.beforeVent = true := by
  simp [PosState.beforeVent, h]

/-- What a change of a position's state does to the fill contexts. -/
@[simp] theorem State.setPosState_seqs (s : State) (p : Pos) (a : PosState) :
    (s.setPosState p a).seqs = s.seqs.modify p fun q => { q with state := a } := by
  unfold State.setPosState
  dsimp only
  rw [State.recomputeSetpoint_seqs]
  split <;> split <;> split <;> (try split) <;> simp

theorem Kept.setPosState (h : Kept x y s t) {p : Pos} {a : PosState}
    (ha : SeqKept (x = some p) (t.seqs.get p).state a) : Kept x y s (t.setPosState p a) := by
  unfold State.setPosState
  extract_lets old s1 special s2 s3 s4
  have k1 : Kept x y s s1 := h.mapSeqState ha
  have k2 : Kept x y s s2 := by
    simp only [s2]
    split
    · exact k1.resolvePoints _
    · exact k1
  have k3 : Kept x y s s3 := by
    simp only [s3]
    split
    · exact k2
    · exact k2.writeFill _ _
  have k4 : Kept x y s s4 := by
    simp only [s4]
    split
    · exact k3.stopMonitor _
    · split
      · exact k3.startSettle _
      · exact k3
  exact k4.recomputeSetpoint

@[simp] theorem Seq.cleared_state (q : Seq) : q.cleared.state = q.state := rfl

@[simp] theorem Kept.cleared (h : Kept x y s t) (p : Pos) : Kept x y s (t.mapSeq p Seq.cleared) := h.mapSeq

theorem Kept.enterDone (h : Kept x y s t) {p : Pos} (hs : SeqKept (x = some p) (t.seqs.get p).state .done) :
    Kept x y s (t.enterDone p) := by
  unfold State.enterDone
  dsimp only
  split
  · exact (h.setPosState hs).setPosState (by rw [State.setPosState_seqs, Six.get_modify_self]; exact .ofAfter (.inr rfl) rfl)
  · exact h.setPosState hs

@[simp] theorem State.leaveAll_seqs (s : State) (p : Pos) : (s.leaveAll p).seqs = s.seqs := by simp [State.leaveAll]

theorem Kept.cancelFill (h : Kept x y s t) {p : Pos} (hs : (t.seqs.get p).state = .authorized ∨ (t.seqs.get p).state = .admitting)
    (w : EndReason) : Kept x y s (t.cancelFill p w) := by
  have b : (t.seqs.get p).state.beforeVent = true := by rcases hs with e | e <;> simp [e, PosState.beforeVent]
  unfold State.cancelFill
  have k : Kept x y s (((t.freeRecord p w true).leaveAll p).mapSeq p Seq.cleared) :=
    ((h.freeRecord _ _ _).leaveAll _).cleared _
  dsimp only
  split
  · exact k.setPosState (.ofBefore (by simpa using b))
  · exact k.enterDone (.ofBefore (by simpa using b))

theorem Kept.finishVent (h : Kept x y s t) {p : Pos} (hs : (t.seqs.get p).state = .vent) : Kept x y s (t.finishVent p) := by
  unfold State.finishVent
  dsimp only
  refine Kept.enterDone (Kept.cleared (Kept.closeRecord (Kept.mapSeq (h.writeVent _ _)) _ _ _) _) ?_
  simp [hs]
  exact .ofAfter (.inl rfl) rfl

@[simp] theorem Kept.ventTest (h : Kept x y s t) (p : Pos) (v : Value) : Kept x y s (t.ventTest p v) := by
  unfold State.ventTest
  split
  · rename_i c
    exact h.finishVent c.1
  · exact h

theorem Kept.enterVent (h : Kept x y s t) {p : Pos} (hs : (t.seqs.get p).state.beforeVent = true) :
    Kept x y s (t.enterVent p) := by
  unfold State.enterVent
  have k := (h.setPosState (a := .vent) (.ofBefore hs)).writeVent p true
  exact Kept.ventTest (Kept.mapSeq (k.mapSale _ _)) _ _

@[simp] theorem Kept.endFill (h : Kept x y s t) (p : Pos) (w : EndReason) (c : Option Condition) :
    Kept x y s (t.endFill p w c) := by
  unfold State.endFill
  split
  · rename_i f
    refine Kept.enterVent (Kept.leaveAll h.mapSeq _) ?_
    simpa using PosState.beforeVent_of_flowing (show (t.seqs.get p).state.flowing = true from f)
  · exact h

theorem Kept.haltPosition (h : Kept x y s t) {p : Pos} (n1 : (t.seqs.get p).state ≠ .halted)
    (n2 : (t.seqs.get p).state ≠ .outOfService) (n3 : x = some p ∨ (t.seqs.get p).state ≠ .idle) (w : EndReason)
    (c : Option Condition) (d : Detail) : Kept x y s (t.haltPosition p w c d) := by
  unfold State.haltPosition
  dsimp only
  refine Kept.setFlag (Kept.leaveAll (Kept.setPosState (Kept.cleared (h.endRecord _ _ _) _) ?_) _) _ _ _
  simp only [State.mapSeq_seqs, State.endRecord_seqs, Six.get_modify_self, Seq.cleared_state]
  exact ⟨fun e => absurd e (by simp [n1, n2]), fun o e => absurd e (n3.resolve_left o), fun _ => rfl⟩

@[simp] theorem Kept.tripEffect (h : Kept x y s t) (p : Pos) : Kept x y s (t.tripEffect p) := by
  unfold State.tripEffect
  split
  · exact h
  · exact h
  · exact h
  · exact h.cancelFill (.inl ‹_›) _
  · exact h.cancelFill (.inr ‹_›) _
  · exact h.haltPosition (by assumption) (by assumption) (.inr (by assumption)) _ _ _

/-! ## Holds and resumes -/

@[simp] theorem Kept.addCause (h : Kept x y s t) (p : Pos) (c : Cause) : Kept x y s (t.addCause p c) := by
  unfold State.addCause
  dsimp only
  have f : ∀ a, (t.seqs.get p).state = a → a.beforeVent = true → (t.seqs.get p).state.beforeVent = true := by
    intro a e b; rw [e]; exact b
  split
  · refine Kept.setPosState h.mapSeq (.ofBefore ?_)
    simpa using f .pulse ‹_› rfl
  · refine Kept.setPosState h.mapSeq (.ofBefore ?_)
    simpa using f .ramp ‹_› rfl
  · exact h.mapSeq
  · exact h.mapSeq
  · exact h

@[simp] theorem Kept.rebase (h : Kept x y s t) (p : Pos) : Kept x y s (t.rebase p) := h.mapSeq

@[simp] theorem State.rebase_state (s : State) (p q : Pos) : ((s.rebase p).seqs.get q).state = (s.seqs.get q).state := by
  simp only [State.rebase, State.mapSeq_seqs, Six.get_modify]
  split <;> rfl

@[simp] theorem Kept.beginPulse (h : Kept x y s t) (p : Pos) : Kept x y s (t.beginPulse p) := by
  unfold State.beginPulse
  dsimp only
  exact (h.writeFill _ _).mapSeq

@[simp] theorem State.beginPulse_state (s : State) (p q : Pos) :
    ((s.beginPulse p).seqs.get q).state = (s.seqs.get q).state := by
  simp only [State.beginPulse, State.mapSeq_seqs, Six.get_modify, State.writeFill_seqs]
  split <;> rfl

theorem Kept.enterResume (h : Kept x y s t) {p : Pos} (hs : (t.seqs.get p).state.beforeVent = true) :
    Kept x y s (t.enterResume p) := by
  unfold State.enterResume
  have k : Kept x y s (t.mapSeq p fun q => { q with holdLimit := none, resume := none }) := h.mapSeq
  dsimp only
  split
  · exact (k.setPosState (.ofBefore (by simpa using hs))).beginPulse _
  · exact ((k.rebase p).setPosState (.ofBefore (by simpa using hs))).writeFill _ _

theorem PosState.beforeVent_of_eq {a b : PosState} (h : a = b) (k : b.beforeVent = true) : a.beforeVent = true := h ▸ k

@[simp] theorem Kept.settleHold (h : Kept x y s t) (p : Pos) : Kept x y s (t.settleHold p) := by
  unfold State.settleHold
  split
  · rename_i c
    have b := PosState.beforeVent_of_eq c.1 rfl
    split
    · exact h.enterResume b
    · exact h.setPosState (.ofBefore b)
  · exact h

@[simp] theorem Kept.removeCause (h : Kept x y s t) (p : Pos) (c : Cause) : Kept x y s (t.removeCause p c) := by
  unfold State.removeCause
  split
  · exact Kept.settleHold h.mapSeq _
  · exact h

@[simp] theorem Kept.completeSwitch (h : Kept x y s t) (p : Pos) : Kept x y s (t.completeSwitch p) := by
  unfold State.completeSwitch
  split
  · rename_i c
    have b := PosState.beforeVent_of_eq c.1 rfl
    split
    · exact h.enterResume b
    · exact h.setPosState (.ofBefore b)
  · exact h

theorem Kept.enterSwitch (h : Kept x y s t) {p : Pos} (hs : (t.seqs.get p).state.beforeVent = true) :
    Kept x y s (t.enterSwitch p) := by
  unfold State.enterSwitch
  dsimp only
  exact Kept.completeSwitch (Kept.setPosState h.mapSeq (.ofBefore (by simpa using hs))) _

/-! ## Reactions (chapter 6) -/

@[simp] theorem Kept.applyReaction {p : Pos} (h : Kept (some p) y s t) (c : Condition) (r : Reaction) :
    Kept (some p) y s (t.applyReaction p c r) := by
  unfold State.applyReaction
  split
  · exact h
  · split
    · exact Kept.addCause h.mapSeq _ _
    · exact h
  · split <;> first | exact h.endFill _ _ _ | exact h.cancelFill (.inl ‹_›) _ | exact h.cancelFill (.inr ‹_›) _ | exact h
  · split
    · exact h
    · exact h
    · exact h.haltPosition (by assumption) (by assumption) (.inl rfl) _ _ _
  · exact (h.tripSource _ _).tripEffect _

/-- A raise at the position whose change is under way. -/
@[simp] theorem Kept.raise {p : Pos} (h : Kept (some p) y s t) (c : Condition) (d : RaiseDetail) (l : Bool) :
    Kept (some p) y s (t.raise p c d l) := by
  unfold State.raise
  dsimp only
  exact Kept.applyReaction (Kept.setFlag h.mapSeq _ _ _) _ _

@[simp] theorem Kept.clearLevel (h : Kept x y s t) (p : Pos) (c : Condition) : Kept x y s (t.clearLevel p c) := by
  unfold State.clearLevel
  dsimp only
  exact h.mapSeq

@[simp] theorem Kept.carryIn {p : Pos} (h : Kept (some p) y s t) : Kept (some p) y s (t.carryIn p) := by
  unfold State.carryIn
  exact Kept.foldl _ (fun u c => Kept.refl.raise c _ true) _ h

/-! ## Admission and pulse -/

theorem Kept.enterPulse (h : Kept x y s t) {p : Pos} (hs : (t.seqs.get p).state = .admitting) (a : PosAlloc) :
    Kept x y s (t.enterPulse p a) := by
  refine h.trans (Kept.closePos (p := p) ?_ (by simp [hs]))
  unfold State.enterPulse
  have k : Kept (some p) y t (t.mapSeq p fun q =>
    { q with holdLimit := none, category := some a.category, band := some a.band, causes := HoldCauses.empty,
             window := [] }) := Kept.refl.mapSeq
  have m := Kept.carryIn (Kept.beginPulse (Kept.setPosState (p := p) (a := .pulse) (k.openRecord p)
    (.ofBefore (by simp [hs, PosState.beforeVent]))) p)
  dsimp only
  split
  · split <;> split <;> simp [m]
  · split <;> simp [m]

@[simp] theorem Kept.tryPulse (h : Kept x y s t) (p : Pos) : Kept x y s (t.tryPulse p) := by
  unfold State.tryPulse
  split
  · rename_i c
    split
    · exact h.enterPulse c.1 _
    · exact h
  · exact h

theorem Kept.enterAdmit (h : Kept x y s t) {p : Pos} (hs : (t.seqs.get p).state = .authorized) :
    Kept x y s (t.enterAdmit p) := by
  unfold State.enterAdmit
  extract_lets d s1 s2 s3
  have k1 : Kept x y s s1 := h.mapSeq
  have k2 : Kept x y s s2 := k1.setPosState (.ofBefore (by simp [s1, hs, PosState.beforeVent]))
  have k3 : Kept x y s s3 := k2.requestCooling _
  split
  · exact (k3.claimBank _ _ _).tryPulse _
  · exact k3.joinWait _ _ _
  · exact k3.cancelFill (.inr (by simp [s3, s2])) _

theorem Kept.backToAuthorized (h : Kept x y s t) {p : Pos} (hs : (t.seqs.get p).state = .admitting) :
    Kept x y s (t.backToAuthorized p) := by
  unfold State.backToAuthorized
  dsimp only
  exact Kept.setPosState (Kept.mapSeq (h.leaveAll p))
    (.ofBefore (by simp [hs, PosState.beforeVent]))

/-! ## Ramp -/

@[simp] theorem Kept.computeTarget (h : Kept x y s t) (p : Pos) : Kept x y s (t.computeTarget p) := by
  unfold State.computeTarget
  dsimp only
  split
  · exact h
  · exact h.mapSeq

@[simp] theorem Kept.conformanceStep {p : Pos} (h : Kept (some p) y s t) (v : Value) :
    Kept (some p) y s (t.conformanceStep p v) := by
  unfold State.conformanceStep
  extract_lets a
  split
  · split
    · extract_lets w
      split
      · exact Kept.raise h.mapSeq _ _ _
      · exact h.mapSeq
    · exact h
  · exact h

theorem Kept.applySwitch (h : Kept x y s t) {p : Pos} (hs : (t.seqs.get p).state.beforeVent = true) (a : SwitchAnswer) :
    Kept x y s (t.applySwitch p a) := by
  unfold State.applySwitch
  split
  · exact h
  · exact h.enterSwitch hs
  · exact h.addCause _ _
  · exact h.endFill _ _ _

theorem Kept.bankCheck (h : Kept x y s t) {p : Pos} (hs : (t.seqs.get p).state.beforeVent = true) (n : Int) :
    Kept x y s (t.bankCheck p n) := by
  unfold State.bankCheck
  dsimp only
  exact (h.switchTest p n).applySwitch (by rw [State.switchTest_seqs]; exact hs) _

@[simp] theorem Kept.stepValve (h : Kept x y s t) (p : Pos) (v : Value) : Kept x y s (t.stepValve p v) := by
  unfold State.stepValve
  dsimp only
  split
  · exact Kept.writeFill h.mapSeq _ _
  · exact h

theorem Kept.switchAndStep (h : Kept x y s t) {p : Pos} (hs : (t.seqs.get p).state.beforeVent = true) (v : Value) :
    Kept x y s (t.switchAndStep p v) := by
  unfold State.switchAndStep
  have k : ∀ r : SwitchAnswer × State, r = (if v.valid then t.switchTest p v.num else (.suits, t)) →
      Kept x y s r.2 ∧ r.2.seqs = t.seqs := by
    rintro r rfl
    split
    · exact ⟨h.switchTest p v.num, State.switchTest_seqs ..⟩
    · exact ⟨h, rfl⟩
  generalize (if v.valid then t.switchTest p v.num else (SwitchAnswer.suits, t)) = r at k
  obtain ⟨k, e⟩ := k r rfl
  split
  · exact k.stepValve _ _
  · exact k.applySwitch (by rw [e]; exact hs) _

@[simp] theorem Kept.evaluateRamp {p : Pos} (h : Kept (some p) y s t) (v : Value) :
    Kept (some p) y s (t.evaluateRamp p v) := by
  unfold State.evaluateRamp
  extract_lets f a b c
  have ha : Kept (some p) y s b := by
    simp only [b, a]; split
    · exact (h.computeTarget p).endFill _ _ _
    · exact h.computeTarget p
  have hc : Kept (some p) y s c := by
    simp only [c]; split
    · exact ha.conformanceStep _
    · exact ha
  split
  · rename_i e
    simp only [f, beq_iff_eq] at e
    exact hc.switchAndStep (PosState.beforeVent_of_eq e rfl) _
  · exact hc

theorem Kept.enterRamp (h : Kept x y s t) {p : Pos} (hs : (t.seqs.get p).state.beforeVent = true) (v : Value) :
    Kept x y s (t.enterRamp p v) := by
  unfold State.enterRamp
  dsimp only
  have k : Kept x y s (t.mapSeq p fun q =>
    { q with pulse := none, rampBase := some v, rampMark := t.now, window := [], opening := (t.header p).pulseOpening,
             evaluation := none }) :=
    h.mapSeq
  have e : ∀ u : State, ((u.computeTarget p).seqs.get p).state = (u.seqs.get p).state := by
    intro u
    unfold State.computeTarget
    dsimp only
    split <;> simp
  refine Kept.bankCheck (Kept.writeFill (Kept.setPosState (k.computeTarget p) (.ofBefore ?_)) _ _) ?_ _
  · rw [e]; simpa using hs
  · simp [PosState.beforeVent, PosState.flowing, PosState.stateClass]

@[simp] theorem Kept.changeCategory (h : Kept x y s t) (p : Pos) (c : Category) : Kept x y s (t.changeCategory p c) := by
  unfold State.changeCategory
  have k : Kept x y s (t.mapSeq p fun q => { q with category := some c }) := h.mapSeq
  dsimp only
  split <;> simp [k]

end Sys2Proof.Machine
end

