-- ==== Sys2Proof/Laws/Scheds.lean ====
section
/-! SUPPORT. Every operation below the compression scheduler and the sequencer leaves the compression scheduler as it is. -/

set_option Elab.async false

namespace Sys2Proof.Machine

variable (s : State)

theorem foldl_sched {α : Type} (f : State → α → State) (hf : ∀ s a, (f s a).sched = s.sched) (l : List α) (s : State) :
    (l.foldl f s).sched = s.sched := by
  induction l generalizing s with
  | nil => rfl
  | cons a l ih => exact (ih _).trans (hf _ _)

@[simp] theorem State.placeCommandSlot_sched (f : CommandSlot) : (s.placeCommandSlot f).sched = s.sched := by
  unfold State.placeCommandSlot; split <;> rfl

@[simp] theorem State.placeTrip_sched (b : Bool) (c : Option TripCause) : (s.placeTrip b c).sched = s.sched :=
  s.placeCommandSlot_sched _

@[simp] theorem State.placeResponse_sched (f : Response) : (s.placeResponse f).sched = s.sched := rfl

@[simp] theorem State.placeSale_sched (d : NodeAddr) (r : SaleRecord) : (s.placeSale d r).sched = s.sched := by
  unfold State.placeSale; split <;> rfl

@[simp] theorem State.answerDeferred_sched (r : Result) : (s.answerDeferred r).sched = s.sched := by
  unfold State.answerDeferred; split <;> rfl

@[simp] theorem State.placeNotice_sched (n : Notice) : (s.placeNotice n).sched = s.sched := by
  unfold State.placeNotice; split <;> rfl

@[simp] theorem State.setFlag_sched (k : EventKind) (sc : EventScope) (d : Detail) : (s.setFlag k sc d).sched = s.sched := by
  unfold State.setFlag; split
  · rfl
  · dsimp only; split <;> simp

@[simp] theorem State.settled_sched (i : Nat) (e : PointEntry) : (s.settled i e).sched = s.sched := by
  unfold State.settled; split
  · split <;> rfl
  · rfl
  · rfl

@[simp] theorem State.compareEffective_sched (i : Nat) (e : PointEntry) (r : ActRecord) :
    (s.compareEffective i e r).sched = s.sched := by
  unfold State.compareEffective; split
  · simp
  · split <;> rfl

@[simp] theorem State.placeCommand_sched (i : Nat) : (s.placeCommand i).sched = s.sched := by
  unfold State.placeCommand; split <;> simp

@[simp] theorem State.noteFillValve_sched (e : PointEntry) (v : Int) : (s.noteFillValve e v).sched = s.sched := by
  unfold State.noteFillValve; split
  · split <;> rfl
  · rfl

@[simp] theorem State.setEffective_sched (i : Nat) (v : Int) : (s.setEffective i v).sched = s.sched := by
  unfold State.setEffective; split
  · split
    · rfl
    · dsimp only; split <;> simp
  · rfl

@[simp] theorem State.resolvePoint_sched (i : Nat) : (s.resolvePoint i).sched = s.sched := by
  unfold State.resolvePoint; split <;> simp

@[simp] theorem State.resolvePoints_sched (l : List Nat) : (s.resolvePoints l).sched = s.sched :=
  foldl_sched _ State.resolvePoint_sched _ _

@[simp] theorem State.writeAuto_sched (i : Nat) (v : Int) : (s.writeAuto i v).sched = s.sched := by
  unfold State.writeAuto; split
  · dsimp only; split <;> simp
  · rfl

@[simp] theorem State.writeOpen_sched (i : Option Nat) (b : Bool) : (s.writeOpen i b).sched = s.sched := by
  unfold State.writeOpen; split
  · rfl
  · split <;> simp

@[simp] theorem State.writeFill_sched (p : Pos) (v : Nat) : (s.writeFill p v).sched = s.sched := by
  unfold State.writeFill; split <;> simp

@[simp] theorem State.writeVent_sched (p : Pos) (b : Bool) : (s.writeVent p b).sched = s.sched := s.writeOpen_sched _ _

@[simp] theorem State.writeBankValve_sched (p : Pos) (b : Bank) (o : Bool) : (s.writeBankValve p b o).sched = s.sched :=
  s.writeOpen_sched _ _

@[simp] theorem State.writeDischarge_sched (c : Comp) (b : Bank) (o : Bool) : (s.writeDischarge c b o).sched = s.sched :=
  s.writeOpen_sched _ _

@[simp] theorem State.writeRun_sched (c : Comp) (o : Bool) : (s.writeRun c o).sched = s.sched := s.writeOpen_sched _ _

@[simp] theorem State.latchTrip_sched (c : TripCause) (p : Option Pos) : (s.latchTrip c p).sched = s.sched := by
  unfold State.latchTrip
  simp only [State.emit_sched]
  rw [foldl_sched _ (fun s q => by split <;> rfl)]
  simp

@[simp] theorem State.endSettle_sched (r : Result) : (s.endSettle r).sched = s.sched := by
  unfold State.endSettle; simp

@[simp] theorem State.tripSource_sched (c : TripCause) (p : Option Pos) : (s.tripSource c p).sched = s.sched := by
  unfold State.tripSource; split <;> simp

@[simp] theorem State.releaseBind_sched (b : Bind) : (s.releaseBind b).sched = s.sched := rfl

@[simp] theorem State.mapContract_sched (i : Nat) (f : Contract → Contract) : (s.mapContract i f).sched = s.sched := rfl

@[simp] theorem State.mapSale_sched (p : Pos) (f : SaleRecord → SaleRecord) : (s.mapSale p f).sched = s.sched := by
  unfold State.mapSale; split <;> rfl

@[simp] theorem State.closeRecord_sched (p : Pos) (w : EndReason) (c : Option Condition) :
    (s.closeRecord p w c).sched = s.sched := by
  unfold State.closeRecord; split
  · dsimp only
    split <;> split <;> simp
  · rfl

@[simp] theorem State.freeRecord_sched (p : Pos) (w : EndReason) (b : Bool) : (s.freeRecord p w b).sched = s.sched := by
  unfold State.freeRecord; split
  · dsimp only
    split <;> split <;> simp
  · rfl

@[simp] theorem State.endRecord_sched (p : Pos) (w : EndReason) (c : Option Condition) :
    (s.endRecord p w c).sched = s.sched := by
  unfold State.endRecord; split
  · split <;> simp
  · rfl

@[simp] theorem State.openRecord_sched (p : Pos) : (s.openRecord p).sched = s.sched := s.mapSale_sched _ _

@[simp] theorem State.claimBank_sched (p : Pos) (b : Bank) (i : Nat) : (s.claimBank p b i).sched = s.sched := by
  unfold State.claimBank; simp

@[simp] theorem State.leavePort_sched (p : Pos) (b : Bank) : (s.leavePort p b).sched = s.sched := by
  unfold State.leavePort; simp

@[simp] theorem State.joinWait_sched (p : Pos) (b : Bank) (i : Nat) : (s.joinWait p b i).sched = s.sched := rfl

@[simp] theorem State.withdraw_sched (p : Pos) : (s.withdraw p).sched = s.sched := by
  unfold State.withdraw; split <;> simp

theorem State.switchTest_sched (p : Pos) (n : Int) : (s.switchTest p n).2.sched = s.sched := by
  unfold State.switchTest; split
  · rfl
  · split
    · rfl
    · simp; split <;> simp
    · simp; split <;> simp

@[simp] theorem State.endItem_sched : s.endItem.sched = s.sched := by unfold State.endItem; split <;> rfl

@[simp] theorem State.requestCooling_sched (r : CoolRequest) : (s.requestCooling r).sched = s.sched := by
  unfold State.requestCooling; split
  · rfl
  · exact State.endItem_sched _

@[simp] theorem State.leaveCooling_sched (h : Holder) : (s.leaveCooling h).sched = s.sched := by
  unfold State.leaveCooling; dsimp only; split
  · split <;> rfl
  · exact State.endItem_sched _

@[simp] theorem State.recomputeSetpoint_sched : s.recomputeSetpoint.sched = s.sched := by
  unfold State.recomputeSetpoint; split
  · rfl
  · dsimp only; split <;> simp

@[simp] theorem State.stopMonitor_sched (p : Pos) : (s.stopMonitor p).sched = s.sched := rfl

@[simp] theorem State.startSettle_sched (p : Pos) : (s.startSettle p).sched = s.sched := rfl

@[simp] theorem State.monitorCategory_sched (p : Pos) : (s.monitorCategory p).sched = s.sched := by
  unfold State.monitorCategory; dsimp only; split <;> rfl

end Sys2Proof.Machine
end

