-- ==== Sys2Proof/Laws/KeptSched.lean ====
section
/-! SUPPORT. The compression scheduler, the cooling allocator's passes and the bank selector keep what `Kept` says. -/

set_option Elab.async false

namespace Sys2Proof.Machine

variable {x : Option Pos} {y : Option Comp} {s t : State}

/-! ## The replenishment queue (R139 to R141) -/

@[simp] theorem Kept.noteCritical (h : Kept x y s t) (b : Bank) : Kept x y s (t.noteCritical b) := h.setFlag _ _ _

@[simp] theorem Kept.joinTest (h : Kept x y s t) (b : Bank) (d : Bool) : Kept x y s (t.joinTest b d) := by
  unfold State.joinTest
  dsimp only
  split
  · split
    · exact Kept.noteCritical h.mapSched _
    · exact h.mapSched
  · exact h

@[simp] theorem Kept.dropEntry (h : Kept x y s t) (b : Bank) : Kept x y s (t.dropEntry b) := h.mapSched

@[simp] theorem Kept.markEntry (h : Kept x y s t) (b : Bank) : Kept x y s (t.markEntry b) := by
  unfold State.markEntry
  dsimp only
  split
  · split
    · exact Kept.noteCritical h.mapSched _
    · exact h.mapSched
  · exact h

@[simp] theorem State.joinTest_comps (s : State) (b : Bank) (d : Bool) : (s.joinTest b d).sched.comps = s.sched.comps := by
  unfold State.joinTest State.noteCritical
  dsimp only
  split
  · split <;> simp
  · rfl

/-! ## States of a compressor -/

/-- COOL_WAIT to UNLOADED: the states a compressor leaves by itself. -/
def CompState.moving (a : CompState) : Bool := a.inRun || a == .coolWait

theorem CompState.moving_of_inRun {a : CompState} (h : a.inRun = true) : a.moving = true := by simp [moving, h]

theorem CompState.moving_of_eq {a b : CompState} (h : a = b) (k : b.moving = true) : a.moving = true := h ▸ k

theorem CompKept.ofMoving {own : Prop} {a b : CompRecord} (h : a.state.moving = true) : CompKept own a b := by
  constructor
  · intro e
    rcases e with e | e <;> (rw [e] at h; exact absurd h (by decide))
  · intro _ e
    exfalso
    revert h e
    cases a.state <;> decide

/-- A compressor that moves by itself may be changed in any way. -/
theorem Kept.mapMoving (h : Kept x y s t) {c : Comp} (m : (t.sched.comps.get c).state.moving = true)
    (f : CompRecord → CompRecord) : Kept x y s (t.mapComp c f) :=
  h.mapCompState (.ofMoving m) fun _ _ e => by rw [e] at m; exact absurd m (by decide)

theorem State.setCompState_comps (s : State) (c : Comp) (a : CompState) :
    (s.setCompState c a).sched.comps = s.sched.comps.modify c fun r => { r with state := a } := by
  unfold State.setCompState
  dsimp only
  split <;> simp

@[simp] theorem State.setCompState_state (s : State) (c : Comp) (a : CompState) :
    ((s.setCompState c a).sched.comps.get c).state = a := by
  simp [State.setCompState_comps]

theorem Kept.setCompStateOf (h : Kept x y s t) {c : Comp} {a : CompState}
    (hc : CompKept (y = some c) (t.sched.comps.get c) { t.sched.comps.get c with state := a })
    (hb : y ≠ some c → t.startBlocked c = true → (t.sched.comps.get c).state = .stopped → a = .stopped) :
    Kept x y s (t.setCompState c a) := by
  have k := h.mapCompState (f := fun r => { r with state := a }) hc hb
  unfold State.setCompState
  dsimp only
  split
  · exact k.resolvePoints _
  · exact k

theorem Kept.setCompState (h : Kept x y s t) {c : Comp} (m : (t.sched.comps.get c).state.moving = true) (a : CompState) :
    Kept x y s (t.setCompState c a) :=
  h.setCompStateOf (.ofMoving m) fun _ _ e => by rw [e] at m; exact absurd m (by decide)

theorem Kept.enterLockout (h : Kept x y s t) {c : Comp} (m : (t.sched.comps.get c).state.moving = true) :
    Kept x y s (t.enterLockout c) :=
  Kept.setCompState h.mapComp (by simpa using m) _

@[simp] theorem Kept.takeHead (h : Kept x y s t) (c : Comp) : Kept x y s (t.takeHead c) := by
  unfold State.takeHead
  split
  · exact h
  · dsimp only
    exact Kept.writeDischarge (Kept.mapBank (Kept.mapComp h.mapSched)) _ _ _

@[simp] theorem State.takeHead_state (s : State) (c d : Comp) :
    ((s.takeHead c).sched.comps.get d).state = (s.sched.comps.get d).state := by
  unfold State.takeHead
  split
  · rfl
  · simp only [State.writeDischarge_sched, State.mapBank_sched, State.mapComp_sched, State.mapSched_sched, Two.get_modify]
    split <;> rfl

@[simp] theorem Kept.endDischarge (h : Kept x y s t) (c : Comp) : Kept x y s (t.endDischarge c) := by
  unfold State.endDischarge
  split
  · exact h
  · dsimp only
    exact Kept.mapComp (Kept.mapBank (h.writeDischarge _ _ _))

@[simp] theorem State.endDischarge_state (s : State) (c d : Comp) :
    ((s.endDischarge c).sched.comps.get d).state = (s.sched.comps.get d).state := by
  unfold State.endDischarge
  split
  · rfl
  · simp only [State.writeDischarge_sched, State.mapBank_sched, State.mapComp_sched, Two.get_modify]
    split <;> rfl

theorem Kept.enterRunning (h : Kept x y s t) {c : Comp} (m : (t.sched.comps.get c).state.moving = true) :
    Kept x y s (t.enterRunning c) :=
  Kept.emit (Kept.setCompState h.mapComp (by simpa using m) _) _

@[simp] theorem Kept.completeSwitching (h : Kept x y s t) (c : Comp) : Kept x y s (t.completeSwitching c) := by
  unfold State.completeSwitching
  dsimp only
  split
  · rename_i e
    exact h.enterRunning (.trans (congrArg CompState.moving e.1) rfl)
  · exact h

/-! ## The end of every scheduler event -/

@[simp] theorem Kept.unloadedTake (h : Kept x y s t) (c : Comp) : Kept x y s (t.unloadedTake c) := by
  unfold State.unloadedTake
  split
  · rename_i e
    refine Kept.setCompState (Kept.mapComp (h.takeHead c)) ?_ _
    simpa using CompState.moving_of_eq (show (t.sched.comps.get c).state = _ from e.1) rfl
  · exact h

@[simp] theorem Kept.noteAsked (h : Kept x y s t) (c : Comp) : Kept x y s (t.noteAsked c) := Kept.mapComp h

@[simp] theorem Kept.keepRequest (h : Kept x y s t) (c : Comp) : Kept x y s (t.keepRequest c) := by
  unfold State.keepRequest
  split
  · rename_i e
    split
    · exact (h.leaveCooling _).setCompState
        (CompState.moving_of_eq ((congrArg (fun d => (d.comps.get c).state) (State.leaveCooling_sched t _)).trans e) rfl) _
    · split
      · exact h
      · exact (h.noteAsked _).requestCooling _
  · exact h

@[simp] theorem Kept.startTest (h : Kept x y s t) (c : Comp) : Kept x y s (t.startTest c) := by
  unfold State.startTest
  split
  · rename_i m
    simp only [State.mayStart, Bool.and_eq_true, beq_iff_eq, Bool.not_eq_true'] at m
    obtain ⟨⟨⟨⟨m1, m2⟩, m3⟩, _⟩, _⟩ := m
    have e : (t.sched.comps.get c).state = .stopped := m1
    split
    · refine Kept.requestCooling (Kept.noteAsked (h.setCompStateOf ?_ ?_) _) _
      · constructor
        · intro f; rw [e] at f; exact absurd f (by simp)
        · intro _ f; rw [e] at f; exact absurd f (by decide)
      · intro _ b
        simp [State.startBlocked, m2, m3] at b
    · exact h
  · exact h

@[simp] theorem Kept.schedule (h : Kept x y s t) : Kept x y s t.schedule := by
  unfold State.schedule
  dsimp only
  exact Kept.foldl _ (fun _ c => Kept.refl.setAllocCritical _ _) _
    (Kept.foldl _ (fun _ c => Kept.refl.startTest c) _
      (Kept.foldl _ (fun _ c => Kept.refl.keepRequest c) _
        (Kept.foldl _ (fun _ c => Kept.refl.unloadedTake c) _ h)))

/-! ## Grants, targets and stops -/

@[simp] theorem Kept.compGrant (h : Kept x y s t) (c : Comp) : Kept x y s (t.compGrant c) := by
  unfold State.compGrant
  split
  · rename_i e
    dsimp only
    refine Kept.schedule (Kept.setCompState (Kept.mapComp ((h.writeRun c true).takeHead c)) ?_ _)
    simpa using CompState.moving_of_eq (show (t.sched.comps.get c).state = _ from e.1) rfl
  · exact h.leaveCooling _

theorem Kept.stopRun (h : Kept x y s t) {c : Comp} (m : (t.sched.comps.get c).state.moving = true) (w : StopReason)
    (rejoin release : Bool) (a : CompState) : Kept x y s (t.stopRun c w rejoin release a) := by
  unfold State.stopRun
  extract_lets target s1 s2 s3 s4 s5 s6 s7
  clear_value target
  have k1 : Kept x y s s1 := h.writeRun _ _
  have k2 : Kept x y s s2 := Kept.foldl _ (fun _ b => Kept.refl.writeDischarge _ _ _) _ k1
  have k3 : Kept x y s s3 := k2.mapComp
  have k4 : Kept x y s s4 := k3.endDischarge _
  have k5 : Kept x y s s5 := by
    simp only [s5]
    split
    · split
      · exact k4.joinTest _ _
      · exact k4
    · exact k4
  have k6 : Kept x y s s6 := by
    simp only [s6]
    split
    · exact k5.leaveCooling _
    · exact k5
  have e2 : s2.sched = t.sched := (foldl_sched _ (fun u b => State.writeDischarge_sched u _ _ _) _ s1).trans
    (State.writeRun_sched t _ _)
  have e4 : (s4.sched.comps.get c).state = (t.sched.comps.get c).state := by simp [s4, s3, e2]
  have e6 : (s6.sched.comps.get c).state = (t.sched.comps.get c).state := by
    have e5 : (s5.sched.comps.get c).state = (t.sched.comps.get c).state := by
      simp only [s5]
      split
      · split
        · simp [e4]
        · exact e4
      · exact e4
    simp only [s6]
    split
    · rw [State.leaveCooling_sched]; exact e5
    · exact e5
  have k7 : Kept x y s s7 := k6.mapMoving (by rw [e6]; exact m) _
  have m7 : (s7.sched.comps.get c).state.moving = true := by simp [s7, e6, m]
  split
  · exact k7.enterLockout m7
  · exact k7.setCompState m7 _

@[simp] theorem State.mapComp_state (s : State) (c d : Comp) (f : CompRecord → CompRecord)
    (hf : ∀ r, (f r).state = r.state) : ((s.mapComp c f).sched.comps.get d).state = (s.sched.comps.get d).state := by
  simp only [State.mapComp_sched, Two.get_modify]
  split
  · exact hf _
  · rfl

theorem Kept.goOn (h : Kept x y s t) {c : Comp} (m : (t.sched.comps.get c).state.moving = true) :
    Kept x y s (t.goOn c) := by
  unfold State.goOn
  generalize (t.comp c).target = o
  extract_lets old s1 s2 s3 d
  have k1 : Kept x y s s1 := h.endDischarge _
  have k2 : Kept x y s s2 := by
    simp only [s2, old]
    split
    · exact k1.joinTest _ _
    · exact k1
  have m2 : (s2.sched.comps.get c).state.moving = true := by
    have e1 : (s1.sched.comps.get c).state = (t.sched.comps.get c).state := by simp [s1]
    simp only [s2, old]
    split
    · simp [e1, m]
    · rw [e1]; exact m
  split
  · have k3 : Kept x y s s3 := Kept.takeHead k2.mapComp _
    exact Kept.schedule ((k3.setCompState (by simp [s3, m2]) _).completeSwitching _)
  · split
    · exact Kept.schedule (k2.stopRun m2 _ _ _ _)
    · exact Kept.schedule (Kept.setCompState k2.mapComp (by simp [m2]) _)

@[simp] theorem Kept.targetTest (h : Kept x y s t) (c : Comp) : Kept x y s (t.targetTest c) := by
  unfold State.targetTest
  split
  · rename_i e
    simp only [State.targetEnded, Bool.and_eq_true, beq_iff_eq] at e
    exact h.goOn (CompState.moving_of_eq e.1 rfl)
  · exact h

/-- A fault of the compressor whose own change is under way. -/
@[simp] theorem Kept.faultComp {c : Comp} (h : Kept x (some c) s t) (w : FaultCause) :
    Kept x (some c) s (t.faultComp c w) := by
  refine h.trans ?_
  unfold State.faultComp
  extract_lets a s1 s2 s3
  split
  · exact .refl
  · rename_i n
    simp only [a, State.comp, not_or] at n
    have k2 : Kept x (some c) t s2 := by
      simp only [s2]
      split
      · rename_i r
        exact Kept.refl.stopRun (CompState.moving_of_inRun r) _ _ _ _
      · have k1 : Kept x (some c) t s1 := by
          simp only [s1]
          split
          · exact Kept.refl.leaveCooling _
          · exact .refl
        have e1 : (s1.sched.comps.get c).state = (t.sched.comps.get c).state := by
          simp only [s1]
          split
          · rw [State.leaveCooling_sched]
          · rfl
        refine Kept.setCompStateOf k1.mapComp ?_ fun f => absurd rfl f
        exact ⟨fun f => absurd f (by simp [e1, n]), fun f => absurd rfl f⟩
    have k3 : Kept x (some c) t s3 := by
      refine { k2 with comps := fun d => ?_, blocked := fun d f b e => ?_ }
      · by_cases q : d = c
        · subst q
          exact ⟨fun f => absurd f (by simp [n]), fun f => absurd rfl f⟩
        · simp only [s3, State.mapComp_sched, Two.get_modify, if_neg q]
          exact k2.comps d
      · have q : d ≠ c := fun q => f (by rw [q])
        simp only [s3, State.mapComp_sched, Two.get_modify, if_neg q]
        exact k2.blocked d f b e
    exact Kept.schedule (k3.setFlag _ _ _)

theorem Kept.coolingReclaimed (h : Kept x y s t) (c : Comp) : Kept x y s (t.coolingReclaimed c) := by
  unfold State.coolingReclaimed
  split
  · exact Kept.schedule (h.stopRun (CompState.moving_of_inRun ‹_›) _ _ _ _)
  · exact h

@[simp] theorem Kept.tripComp (h : Kept x y s t) (c : Comp) : Kept x y s (t.tripComp c) := by
  unfold State.tripComp
  dsimp only
  split
  · rename_i e
    exact (h.leaveCooling _).setCompState
      (CompState.moving_of_eq ((congrArg (fun d => (d.comps.get c).state) (State.leaveCooling_sched t _)).trans e) rfl) _
  · split
    · exact h.stopRun (CompState.moving_of_inRun ‹_›) _ _ _ _
    · exact h

@[simp] theorem Kept.tripComps (h : Kept x y s t) : Kept x y s t.tripComps :=
  Kept.schedule (Kept.foldl _ (fun _ c => Kept.refl.tripComp c) _ h)

/-! ## Hand-overs to the scheduler -/

theorem Kept.foldlTargets (h : Kept x y s t) (b : Bank) :
    Kept x y s (twoIndices.foldl (fun s c => if (s.comp c).target = some b then s.targetTest c else s) t) := by
  refine Kept.foldl _ (fun u c => ?_) _ h
  split
  · exact Kept.refl.targetTest c
  · exact .refl

theorem Kept.runFeedback {c : Comp} (h : Kept x (some c) s t) (on : Bool) : Kept x (some c) s (t.runFeedback c on) := by
  unfold State.runFeedback
  split
  · rename_i e
    split
    · exact Kept.schedule (Kept.enterRunning h.mapComp
        (by simpa using CompState.moving_of_eq (show (t.sched.comps.get c).state = _ from e) rfl))
    · exact h
  · split
    · exact h
    · exact h.faultComp _
  · split
    · exact h
    · exact h.faultComp _
  · split
    · exact h
    · exact h.faultComp _
  · exact h

theorem Kept.startExpired {c : Comp} (h : Kept x (some c) s t) : Kept x (some c) s (t.startExpired c) := by
  unfold State.startExpired
  split
  · exact h.faultComp _
  · exact h

theorem Kept.runExpired (h : Kept x y s t) (c : Comp) : Kept x y s (t.runExpired c) := by
  unfold State.runExpired
  split
  · rename_i e
    exact Kept.schedule (h.stopRun (CompState.moving_of_eq (show (t.sched.comps.get c).state = _ from e) rfl) _ _ _ _)
  · exact h

/-! ## Cooling: service, grants, reclaim (chapter 10) -/

@[simp] theorem Kept.grantEntry (h : Kept x y s t) (a : Holder) (n : Nat) (f : Option PosAlloc) (b : Bool) :
    Kept x y s (t.grantEntry a n f b) := h.mapCool

@[simp] theorem Kept.clearCategoryLevel (h : Kept x y s t) (p : Pos) : Kept x y s (t.clearCategoryLevel p) := by
  unfold State.clearCategoryLevel
  split
  · exact (h.mapMonitor _ _).clearLevel _ _
  · exact h

@[simp] theorem Kept.grantAdmit (h : Kept x y s t) (p : Pos) : Kept x y s (t.grantAdmit p) := by
  unfold State.grantAdmit
  dsimp only
  split
  · exact ((h.mapMonitor _ _).clearCategoryLevel _).tryPulse _
  · exact h.leaveCooling _

@[simp] theorem Kept.newCategory (h : Kept x y s t) (p : Pos) (c : Category) : Kept x y s (t.newCategory p c) :=
  (h.changeCategory _ _).monitorCategory _

@[simp] theorem Kept.grantHeld (h : Kept x y s t) (p : Pos) (c : Category) : Kept x y s (t.grantHeld p c) := by
  unfold State.grantHeld
  dsimp only
  split
  · split
    · exact h.removeCause _ _
    · exact (h.newCategory _ _).recomputeSetpoint.removeCause _ _
  · exact h.leaveCooling _

theorem Kept.grantHead (h : Kept x y s t) {u : State} (e : t.grantHead = some u) : Kept x y s u := by
  unfold State.grantHead at e
  split at e
  · cases e
  · split at e
    · cases e; exact (h.grantEntry _ _ _ _).compGrant _
    · cases e
  · dsimp only at e
    split at e
    · cases e
    · cases e; exact (h.grantEntry _ _ _ _).grantAdmit _
  · split at e
    · cases e
    · cases e; exact (h.grantEntry _ _ _ _).grantHeld _ _

@[simp] theorem Kept.servicePass (h : Kept x y s t) : Kept x y s t.servicePass := by
  unfold State.servicePass
  split
  · exact (h.handOvers _).grantHead ‹_›
  · exact h

@[simp] theorem Kept.takeRelease (h : Kept x y s t) (a : Holder) : Kept x y s (t.takeRelease a) :=
  (h.removeEntry _).servicePass

@[simp] theorem Kept.takeRequest (h : Kept x y s t) (r : CoolRequest) : Kept x y s (t.takeRequest r) := by
  unfold State.takeRequest
  split
  · exact (h.placeRequest _).servicePass
  · exact h

@[simp] theorem Kept.reclaimComp (h : Kept x y s t) (b : Bool) : Kept x y s (t.reclaimComp b) := by
  unfold State.reclaimComp
  split
  · exact h
  · split
    · exact (h.removeEntry _).coolingReclaimed _
    · exact h

@[simp] theorem Kept.moveEntry (h : Kept x y s t) (p : Pos) (k : Category) : Kept x y s (t.moveEntry p k) :=
  h.mapAlloc _ _

@[simp] theorem Kept.downgrade (h : Kept x y s t) (p : Pos) : Kept x y s (t.downgrade p) := by
  unfold State.downgrade
  split
  · exact h
  · split
    · exact (h.moveEntry _ _).newCategory _ _
    · exact h

@[simp] theorem Kept.downgradePass (h : Kept x y s t) : Kept x y s t.downgradePass :=
  Kept.foldl _ (fun _ p => Kept.refl.downgrade p) _ h

@[simp] theorem Kept.reclaimPos (h : Kept x y s t) : Kept x y s t.reclaimPos := by
  unfold State.reclaimPos
  split
  · exact h
  · split
    · dsimp only
      split
      · exact Kept.addCause (Kept.mapCool (h.removeEntry _)) _ _
      · exact Kept.mapCool (h.removeEntry _)
    · exact h

@[simp] theorem Kept.reclaim (h : Kept x y s t) : Kept x y s t.reclaim := by
  unfold State.reclaim
  dsimp only
  refine Kept.emit (Kept.recomputeSetpoint (Kept.setFlag ?_ _ _ _)) _
  refine Kept.foldl _ (fun _ _ => Kept.refl.reclaimPos) _ ?_
  exact ((((h.reclaimComp _).reclaimComp _).downgradePass.downgradePass).reclaimComp _).reclaimComp _

/-- A grace expiry of the position whose change is under way. -/
theorem Kept.graceExpired {p : Pos} (h : Kept (some p) y s t) : Kept (some p) y s (t.graceExpired p) := by
  unfold State.graceExpired
  dsimp only
  split
  · exact ((((h.mapMonitor _ _).moveEntry _ _).newCategory _ _).recomputeSetpoint).emit _
  · exact ((h.mapMonitor _ _).mapMonitor _ _).raise _ _ _

/-! ## Freed ports and waiters (chapter 8) -/

@[simp] theorem Kept.portClaimed (h : Kept x y s t) (p : Pos) : Kept x y s (t.portClaimed p) := by
  unfold State.portClaimed
  split
  · exact h.tryPulse _
  · split
    · exact h.removeCause _ _
    · exact h.withdraw _

@[simp] theorem Kept.supplyGone (h : Kept x y s t) (p : Pos) : Kept x y s (t.supplyGone p) := by
  unfold State.supplyGone
  split
  · exact h.cancelFill (.inr ‹_›) _
  · exact h.endFill _ _ _

@[simp] theorem Kept.continueChoice (h : Kept x y s t) (p : Pos) (k : Nat) : Kept x y s (t.continueChoice p k) := by
  unfold State.continueChoice
  dsimp only
  split
  · exact ((h.setDraw _ _).claimBank _ _ _).portClaimed _
  · exact (h.setDraw _ _).joinWait _ _ _
  · exact (h.setDraw _ _).supplyGone _

@[simp] theorem Kept.portRound (h : Kept x y s t) (b : Bank) : Kept x y s (t.portRound b) := by
  unfold State.portRound
  split
  · exact h
  · split
    · dsimp only
      split
      · exact Kept.portClaimed (Kept.claimBank h.mapBank _ _ _) _
      · exact Kept.continueChoice h.mapBank _ _
    · exact h

@[simp] theorem Kept.portFreed (h : Kept x y s t) (b : Bank) : Kept x y s (t.portFreed b) :=
  Kept.foldl _ (fun _ _ => Kept.refl.portRound b) _ h

@[simp] theorem Kept.waitersOut (h : Kept x y s t) (b : Bank) : Kept x y s (t.waitersOut b) := by
  unfold State.waitersOut
  dsimp only
  exact Kept.foldl _ (fun _ p => Kept.refl.continueChoice p _) _ h.mapBank

end Sys2Proof.Machine
end

