-- ==== Sys2Proof/Laws/KeptEvent.lean ====
section
/-! SUPPORT. What the hand-overs of an event, the timers of a fill, readings, totals and link frames leave as it was. -/

set_option Elab.async false

namespace Sys2Proof.Machine

variable {x : Option Pos} {y : Option Comp} {s t : State}

/-! ## Hand-overs -/

@[simp] theorem Kept.receive (h : Kept x y s t) (a : HandOver) : Kept x y s (t.receive a) := by
  unfold State.receive
  split
  · exact h.portFreed _
  · exact h.servicePass
  · exact h.servicePass
  · exact h.takeRelease _
  · exact h.takeRequest _
  · exact h.completeSwitch _
  · exact (h.completeSwitching _).schedule
  · exact h.targetTest _
  · exact h.tripEffect _
  · exact h.tripComps
  · exact h.schedule

theorem Kept.drain (h : Kept x y s t) (n : Nat) : Kept x y s (State.drain n t) := by
  induction n generalizing t with
  | zero => exact h
  | succ n ih =>
    unfold State.drain
    split
    · exact h
    · exact ih ((h.handOvers _).receive _)

/-- What the hand-overs of an event leave as it was. -/
@[simp] theorem Kept.settle (h : Kept x y s t) : Kept x y s t.settle := (h.drain _).handOvers _

theorem Loose.settle (h : Loose s t) : Loose s t.settle :=
  h.trans (Kept.settle (x := none) (y := none) .refl).toLoose

@[simp] theorem State.settle_handOvers (s : State) : s.settle.handOvers = [] := rfl

/-- With no hand-over waiting there is nothing to settle. -/
theorem State.settle_of_quiescent {s : State} (h : s.quiescent) : s.settle = s := by
  have e : s.drain Config.handOverFuel = s := by
    show s.drain (4095 + 1) = s
    unfold State.drain
    rw [show s.handOvers = [] from h]
  unfold State.settle
  rw [e, ← show s.handOvers = [] from h]

/-! ## What a change of some blocks alone leaves -/

/-- A change of fill contexts, banks, draws, compressors, cooling and hand-overs. -/
theorem Loose.of_eq (ring : t.ring = s.ring) (points : t.points = s.points) (tables : t.tables = s.tables)
    (sales : t.sales = s.sales) (events : t.events = s.events) (time : t.time = s.time)
    (reactions : t.reactions = s.reactions) (pending : t.pending = s.pending) : Loose s t := by
  obtain ⟨⟩ := s
  obtain ⟨⟩ := t
  simp only at ring points tables sales events time reactions pending
  subst ring points tables sales events time reactions pending
  exact { (Loose.refl : Loose _ _) with safeAt := fun _ _ a => a, newlySafe := fun e f => absurd (f.symm.trans e) (by simp) }

theorem Loose.mapBank (h : Loose s t) (b : Bank) (f : BankLive → BankLive) : Loose s (t.mapBank b f) :=
  h.trans (.of_eq rfl rfl rfl rfl rfl rfl rfl rfl)

theorem Loose.mapSched (h : Loose s t) (f : Scheduler → Scheduler) : Loose s (t.mapSched f) :=
  h.trans (.of_eq rfl rfl rfl rfl rfl rfl rfl rfl)

theorem Loose.mapCool (h : Loose s t) (f : Cooling → Cooling) : Loose s (t.mapCool f) :=
  h.trans (.of_eq rfl rfl rfl rfl rfl rfl rfl rfl)

theorem Loose.mapSeq (h : Loose s t) (p : Pos) (f : Seq → Seq) : Loose s (t.mapSeq p f) :=
  h.trans (.of_eq rfl rfl rfl rfl rfl rfl rfl rfl)

theorem Loose.kept (h : Loose s t) {u : State} (k : Kept x y t u) : Loose s u := h.trans k.toLoose

theorem Loose.mapIntake (h : Loose s t) (p : Pos) (f : Intake → Intake) : Loose s (t.mapIntake p f) :=
  h.trans { (Loose.refl : Loose t t) with sales := { SalesKept.refl t.sales with } }

theorem Loose.foldl {α : Type} (f : State → α → State) (hf : ∀ t a, Loose t (f t a)) (l : List α) (h : Loose s t) :
    Loose s (l.foldl f t) := by
  induction l generalizing t with
  | nil => exact h
  | cons a l ih => exact ih (h.trans (hf t a))

/-! ## Timers of the fill -/

theorem Kept.coupleExpired (h : Kept x y s t) (p : Pos) : Kept x y s (t.coupleExpired p) := by
  unfold State.coupleExpired
  dsimp only
  split
  · exact (h.cancelFill (.inl ‹_›) _).setFlag _ _ _
  · exact h

theorem Kept.holdExpired (h : Kept x y s t) (p : Pos) : Kept x y s (t.holdExpired p) := by
  unfold State.holdExpired
  split
  · exact h.cancelFill (.inr ‹_›) _
  · exact h.endFill _ _ _
  · exact h.endFill _ _ _
  · exact h

theorem Kept.openEnd (h : Kept x y s t) (p : Pos) : Kept x y s (t.openEnd p) := by
  unfold State.openEnd
  dsimp only
  exact Kept.mapSeq (h.writeFill _ _)

theorem Kept.leakTest {p : Pos} (h : Kept (some p) y s t) (v : Value) : Kept (some p) y s (t.leakTest p v) := by
  unfold State.leakTest
  split
  · split
    · exact h.raise _ _ _
    · exact h
  · exact h

theorem Kept.settleEnd {p : Pos} (h : Kept (some p) y s t) : Kept (some p) y s (t.settleEnd p) := by
  unfold State.settleEnd
  extract_lets v s1 s2
  have k1 : Kept (some p) y s s1 := h.mapSeq
  have k2 : Kept (some p) y s s2 := k1.leakTest _
  split
  · exact k1.endFill _ _ _
  · split
    · exact k2
    · rename_i e
      split
      · exact k2.endFill _ _ _
      · split
        · exact k2.endFill _ _ _
        · have e' : (s2.seqs.get p).state = .pulse := Classical.not_not.mp e
          exact Kept.enterRamp k2.mapSeq (by simp [e', PosState.beforeVent, PosState.flowing, PosState.stateClass]) _

theorem Kept.ventExpired {p : Pos} (h : Kept (some p) y s t) : Kept (some p) y s (t.ventExpired p) := by
  unfold State.ventExpired
  dsimp only
  split
  · exact Kept.finishVent (Kept.raise h.mapSeq _ _ _) ‹_›
  · exact Kept.raise h.mapSeq _ _ _

/-! ## The vehicle data link -/

@[simp] theorem Kept.mapLink (h : Kept x y s t) (p : Pos) (f : LinkState → LinkState) : Kept x y s (t.mapLink p f) :=
  h.mapSeq

@[simp] theorem Kept.computeSoc (h : Kept x y s t) (p : Pos) : Kept x y s (t.computeSoc p) := by
  unfold State.computeSoc
  split
  · exact h
  · exact h.mapLink _ _

@[simp] theorem Kept.fallBack (h : Kept x y s t) (p : Pos) (c : LinkCause) : Kept x y s (t.fallBack p c) := by
  unfold State.fallBack
  extract_lets s1 s2 s3 past
  have k : Kept x y s s3 := ((h.mapLink _ _).mapSale _ _).setFlag _ _ _
  split
  · exact k.endFill _ _ _
  · exact k

theorem Kept.linkValues (h : Kept x y s t) (p : Pos) (a b : Word) (st : Status) : Kept x y s (t.linkValues p a b st) := by
  unfold State.linkValues
  split
  · exact (h.mapLink _ _).computeSoc _
  · dsimp only
    split
    · exact ((h.mapLink _ _).computeSoc _).fallBack _ _
    · exact (h.mapLink _ _).computeSoc _

theorem Kept.tankTest {p : Pos} (h : Kept (some p) y s t) : Kept (some p) y s (t.tankTest p) := by
  unfold State.tankTest
  split
  · exact h
  · split
    · exact h
    · split
      · exact h.raise _ _ _
      · exact h.raise _ _ _

theorem Kept.vehicleStep (h : Kept x y s t) (p : Pos) (c : VehicleCommand) : Kept x y s (t.vehicleStep p c) := by
  unfold State.vehicleStep
  extract_lets s1 a
  have k : Kept x y s s1 := h.mapLink _ _
  split
  · split
    · exact k.removeCause _ _
    · exact k
  · split
    · exact k.addCause _ _
    · exact k
  · split
    · rename_i e
      exact k.cancelFill (.inr e) _
    · split
      · exact k.endFill _ _ _
      · exact k

theorem Kept.agreementStep (h : Kept x y s t) (p : Pos) : Kept x y s (t.agreementStep p) := by
  unfold State.agreementStep
  split
  · split
    · split
      · exact h.fallBack _ _
      · exact h
    · exact h
  · exact h

theorem Kept.socStep (h : Kept x y s t) (p : Pos) : Kept x y s (t.socStep p) := by
  unfold State.socStep
  split
  · split
    · split
      · exact h.endFill _ _ _
      · exact h
    · exact h
  · exact h

theorem Kept.takeLinkAt {p : Pos} (h : Kept (some p) y s t) (src : NodeAddr) (a b : Word) (st : Status)
    (c : VehicleCommand) : Kept (some p) y s (t.takeLinkAt p src a b st c) := by
  unfold State.takeLinkAt
  split
  · dsimp only
    exact (((Kept.tankTest (h.linkValues p a b st)).vehicleStep p c).agreementStep p).socStep p
  · exact h

theorem Kept.linkExpired (h : Kept x y s t) (p : Pos) : Kept x y s (t.linkExpired p) := by
  unfold State.linkExpired
  dsimp only
  split
  · exact (h.mapLink _ _).fallBack _ _
  · exact h.mapLink _ _

/-! ## The meter -/

theorem Kept.markInterval (h : Kept x y s t) (p : Pos) : Kept x y s (t.markInterval p) := by
  refine h.trans { (Kept.refl : Kept x y t t) with sales := { SalesKept.refl t.sales with }, intake := fun q => ?_ }
  simp only [State.markInterval, State.mapIntake, State.mapSales_sales, Six.get_modify]
  split <;> rfl

theorem Loose.meterFaulty (h : Loose s t) (p : Pos) (d : RaiseDetail) : Loose s (t.meterFaulty p d) := by
  unfold State.meterFaulty
  split
  · exact (h.mapIntake _ _).kept (Kept.raise (p := p) (y := none) .refl _ _ _)
  · exact h

theorem Loose.meterFaultCase (h : Loose s t) (p : Pos) (d : Option Nat) (st : Status) :
    Loose s (t.meterFaultCase p d st) :=
  Loose.meterFaulty (h.kept (Kept.markSuspect (Kept.markInterval (x := none) (y := none) .refl p) p)) _ _

theorem Kept.grossTold (h : Kept x y s t) (p : Pos) : Kept x y s (t.grossTold p) := by
  unfold State.grossTold
  split
  · split
    · exact h.endFill _ _ _
    · exact h
  · exact h

theorem Kept.classifyDelta {p : Pos} (h : Kept (some p) y s t) (d c : Nat) : Kept (some p) y s (t.classifyDelta p d c) := by
  unfold State.classifyDelta
  split
  · dsimp only
    split
    · exact (h.markInterval _).raise _ _ _
    · exact h.markInterval _
  · split
    · exact ((h.mapSale _ _).markInterval _).grossTold _
    · exact h.markInterval _

theorem Loose.takeTotalAt (h : Loose s t) (p : Pos) (src : NodeAddr) (w : Word) (st : Status) :
    Loose s (t.takeTotalAt p src w st) := by
  unfold State.takeTotalAt
  split
  · exact h
  · split
    · dsimp only
      have k : ∀ f, Loose s (t.mapIntake p f) := fun f => h.mapIntake _ _
      split
      · exact (k _).meterFaultCase _ _ _
      · exact ((k _).mapIntake _ _).kept (Kept.markInterval (x := none) (y := none) .refl p)
      · split
        · exact ((k _).mapIntake _ _).kept (Kept.markInterval (x := none) (y := none) .refl p)
        · split
          · exact ((k _).mapIntake _ _).meterFaultCase _ _ _
          · exact (((k _).mapIntake _ _).mapIntake _ _).kept (Kept.classifyDelta (p := p) (y := none) .refl _ _)
    · exact h

theorem Loose.meterExpired (h : Loose s t) (p : Pos) : Loose s (t.meterExpired p) := by
  unfold State.meterExpired
  dsimp only
  split
  · exact Loose.meterFaulty ((h.mapIntake _ _).kept (Kept.markSuspect (x := none) (y := none) .refl p)) _ _
  · exact h.mapIntake _ _

/-! ## Banks and capacity -/

theorem Loose.bankStateTold (h : Loose s t) (b : Bank) : Loose s (t.bankStateTold b) := by
  unfold State.bankStateTold
  extract_lets a s1 s2 s3
  have k1 : Loose s s1 := h.mapSched _
  have k2 : Loose s s2 := by
    simp only [s2]
    split
    · exact k1
    · exact k1.kept (Kept.dropEntry (x := none) (y := none) .refl _)
  exact (k2.kept (Kept.foldlTargets (x := none) (y := none) .refl b)).kept
    (Kept.schedule (Kept.joinTest (x := none) (y := none) .refl _ _))

theorem Loose.bankStateChanged (h : Loose s t) (b : Bank) (a : BankState) : Loose s (t.bankStateChanged b a) := by
  unfold State.bankStateChanged
  have k : Loose s (t.bankStateTold b) := h.bankStateTold _
  dsimp only
  split
  · exact k.kept (Kept.waitersOut (x := none) (y := none) .refl _)
  · exact k

theorem Loose.setBankState (h : Loose s t) (b : Bank) (a : BankState) : Loose s (t.setBankState b a) := by
  unfold State.setBankState
  dsimp only
  split
  · exact h
  · exact (h.mapBank _ _).bankStateChanged _ _

theorem Loose.bankPressureTold (h : Loose s t) (b : Bank) (v : Value) : Loose s (t.bankPressureTold b v) := by
  unfold State.bankPressureTold
  extract_lets s1 s2 s3
  have k1 : Loose s s1 := h.mapSched _
  have k2 : Loose s s2 := by
    simp only [s2]
    split
    · exact k1.kept (Kept.dropEntry (x := none) (y := none) .refl _)
    · exact k1.kept (Kept.markEntry (x := none) (y := none) .refl _)
  exact (k2.kept (Kept.foldlTargets (x := none) (y := none) .refl b)).kept
    (Kept.schedule (Kept.joinTest (x := none) (y := none) .refl _ _))

theorem Loose.bankReading (h : Loose s t) (b : Bank) (v : Value) : Loose s (t.bankReading b v) := by
  unfold State.bankReading
  dsimp only
  split
  · exact (h.mapBank _ _).bankPressureTold _ _
  · exact ((h.mapBank _ _).setBankState _ _).bankPressureTold _ _

theorem Loose.updateBand (h : Loose s t) : Loose s t.updateBand := by
  unfold State.updateBand
  exact h.mapCool _

theorem Loose.recomputeSince (h : Loose s t) (c : Cooling) : Loose s (t.recomputeSince c) := by
  unfold State.recomputeSince
  extract_lets new s1
  have k : Loose s s1 := h.mapCool _
  split
  · exact k.kept (Kept.reclaim (x := none) (y := none) .refl)
  · split
    · exact k.kept (Kept.emit (x := none) (y := none) .refl _)
    · exact k

theorem Loose.recomputeCapacity (h : Loose s t) : Loose s t.recomputeCapacity := h.recomputeSince _

theorem Loose.recomputeBand (h : Loose s t) : Loose s t.recomputeBand := h.updateBand.recomputeSince _

/-! ## Readings -/

theorem Kept.outletClears (h : Kept x y s t) (p : Pos) (o : LimitOutcome) : Kept x y s (t.outletClears p o) := by
  unfold State.outletClears
  split
  · exact h.clearCategoryLevel _
  · exact h

theorem Kept.takeClears (h : Kept x y s t) (p : Pos) (f : Findings) : Kept x y s (t.takeClears p f) := by
  unfold State.takeClears
  extract_lets a s1 s2 s3
  have k1 : Kept x y s s1 := by
    simp only [s1]
    split
    · split
      · exact h.clearLevel _ _
      · exact h
    · exact h
  have k2 : Kept x y s s2 := by
    simp only [s2]
    split
    · exact k1.clearLevel _ _
    · exact k1
  have k3 : Kept x y s s3 := by
    simp only [s3]
    split
    · exact k2.clearLevel _ _
    · exact k2
  split
  · exact k3.outletClears _ _
  · exact k3

theorem Kept.takeRaises {p : Pos} (h : Kept (some p) y s t) (i : Nat) (f : Findings) (b : Bool) :
    Kept (some p) y s (t.takeRaises p i f b) := by
  unfold State.takeRaises
  extract_lets a s1 s2
  have k1 : Kept (some p) y s s1 := by
    simp only [s1]
    split
    · exact h.raise _ _ _
    · exact h
  have k2 : Kept (some p) y s s2 := by
    simp only [s2]
    split
    · exact k1.raise _ _ _
    · exact k1
  split
  · exact k2.raise _ _ _
  · exact k2

theorem Kept.takeConditions {p : Pos} (h : Kept (some p) y s t) (i : Nat) (f : Findings) :
    Kept (some p) y s (t.takeConditions p i f) := by
  unfold State.takeConditions
  exact Kept.takeRaises (h.takeClears p f) i f _

theorem Kept.pressureRaise {p : Pos} (h : Kept (some p) y s t) (i : Nat) (v : Value) (o : Option LimitOutcome) (b : Bool) :
    Kept (some p) y s (t.pressureRaise p i v o b) := by
  unfold State.pressureRaise
  extract_lets s1 s2
  have k1 : Kept (some p) y s s1 := h.mapSeq
  have k2 : Kept (some p) y s s2 := by
    simp only [s2]
    split
    · exact k1.computeTarget _
    · exact k1
  split
  · exact k2.raise _ _ _
  · split
    · exact k2.raise _ _ _
    · exact k2

theorem Kept.pressureValue {p : Pos} (h : Kept (some p) y s t) (v : Value) :
    Kept (some p) y s (t.pressureValue p v) := by
  unfold State.pressureValue
  split
  · exact h.evaluateRamp _
  · exact h.ventTest _ _

theorem Kept.temperatureValue (h : Kept x y s t) (p : Pos) (o : Option LimitOutcome) :
    Kept x y s (t.temperatureValue p o) := by
  unfold State.temperatureValue
  split
  · exact h.mapMonitor _ _
  · exact h

theorem Kept.nozzleValue {p : Pos} (h : Kept (some p) y s t) : Kept (some p) y s (t.nozzleValue p) := by
  unfold State.nozzleValue
  split
  · split
    · exact h.enterAdmit ‹_›
    · exact h
  · split
    · exact h
    · exact h.backToAuthorized ‹_›
  · split
    · rename_i e _
      exact h.setPosState (.ofAfter (.inr e) rfl)
    · exact h
  · exact h

theorem Kept.ownRaise {p : Pos} (h : Kept (some p) y s t) (i : Nat) (e : PointEntry) (f : Findings) (a b : Bool) :
    Kept (some p) y s (t.ownRaise p i e f a b) := by
  unfold State.ownRaise
  split
  · exact h.pressureRaise _ _ _ _
  · exact h.pressureRaise _ _ _ _
  · split
    · exact h.raise _ _ _
    · exact h
  · exact h

theorem Kept.takeValue {p : Pos} (h : Kept (some p) y s t) (e : PointEntry) (f : Findings) (b : Bool) :
    Kept (some p) y s (t.takeValue p e f b) := by
  unfold State.takeValue
  split
  · exact h.pressureValue _
  · exact h.pressureValue _
  · exact h.temperatureValue _ _
  · split
    · exact h
    · exact h.nozzleValue
  · exact h

theorem Loose.recombine (h : Loose s t) (p : Pos) : Loose s (t.recombine p) := by
  refine h.trans { (Loose.refl : Loose t t) with points := ?_, newlySafe := ?_ }
  · exact { PointsKept.refl t.points with }
  · exact fun e f => absurd (f.symm.trans e) (by simp)

/-- A position point's record has changed: after the pair is recombined, where it is, the rest are consequences. -/
theorem State.positionPoint_kept (s : State) (p : Pos) (i : Nat) (e : PointEntry) (old : LiveRecord) (b : Bool) :
    ∃ u, (u = s ∨ u = s.recombine p) ∧ Kept (some p) y u (s.positionPoint p i e old b) := by
  unfold State.positionPoint
  extract_lets pr s1 f stale left s2
  refine ⟨s1, ?_, ?_⟩
  · simp only [s1]
    split
    · exact .inr rfl
    · exact .inl rfl
  · exact (((Kept.refl.takeConditions i f).ownRaise _ _ _ _ _).settleHold p).takeValue _ _ _

theorem Loose.positionPoint (h : Loose s t) (p : Pos) (i : Nat) (e : PointEntry) (old : LiveRecord) (b : Bool) :
    Loose s (t.positionPoint p i e old b) := by
  obtain ⟨u, hu, k⟩ := State.positionPoint_kept (y := none) t p i e old b
  rcases hu with rfl | rfl
  · exact h.kept k
  · exact (h.recombine p).kept k

theorem Kept.stationWatch (h : Kept x y s t) (i : Nat) (r : LiveRecord) (b : Bool) : Kept x y s (t.stationWatch i r b) := by
  unfold State.stationWatch
  split
  · exact h.setFlag _ _ _
  · exact h

theorem Kept.dischargePoint {c : Comp} (h : Kept x (some c) s t) (old r : LiveRecord) (b : Bool) :
    Kept x (some c) s (t.dischargePoint c old r b) := by
  unfold State.dischargePoint
  extract_lets s1 s2
  have k1 : Kept x (some c) s s1 := by
    simp only [s1]
    split
    · exact h.faultComp _
    · exact h
  have k2 : Kept x (some c) s s2 := by
    simp only [s2]
    split
    · exact k1.faultComp _
    · exact k1
  exact k2.schedule

theorem Kept.feedbackPoint (h : Kept x y s t) (i : Nat) : Kept x y s (t.feedbackPoint i) := by
  unfold State.feedbackPoint
  refine Kept.foldl _ (fun u j => ?_) _ h
  split
  · exact Kept.refl.compareFeedback ‹_›
  · exact .refl

/-- What handing over a changed record leaves as it was. -/
theorem Loose.handOver (h : Loose s t) (i : Nat) (e : PointEntry) (old r : LiveRecord) (b : Bool) :
    Loose s (t.handOver i e old r b) := by
  have w : ∀ {u}, Loose s u → Loose s (u.stationWatch i r b) := fun k =>
    k.kept (Kept.stationWatch (x := none) (y := none) .refl _ _ _)
  unfold State.handOver
  split
  · exact h.kept (Kept.feedbackPoint (x := none) (y := none) .refl _)
  · exact h.positionPoint _ _ _ _ _
  · exact (w h).bankReading _ _
  · exact h.kept (Kept.dischargePoint (x := none) .refl _ _ _)
  · exact h.kept (Kept.runFeedback (x := none) .refl _)
  · exact (w h).recomputeBand
  · exact h.recomputeCapacity
  · exact (w h).recomputeCapacity
  · split
    · exact h.kept (Kept.tripSource (x := none) (y := none) .refl _ _)
    · exact h
  · exact h

end Sys2Proof.Machine
end

