-- ==== Sys2Proof/Laws/Arrival.lean ====
section
/-! SUPPORT. Where an arriving frame goes, said once for each way: stripped, only forwarded, copied inward, taken as a
request, refused, discarded (R186, R187, R188, R191, R192). -/

set_option Elab.async false

namespace Sys2Proof.Machine

variable {s : State} {f : Frame} {h : Header}

/-- Nothing but a command's own effect and its hand-overs happens in an event. -/
theorem State.event_eq (s : State) (body : State → State) : s.event body = .next (body s).settle := rfl

/-! ## The ways of a frame -/

theorem State.ringIn_own (a : s.addressed = true) (e : f.hdr.src = s.ring.strap) (k : State → State) :
    s.ringIn f k = s := by
  simp [State.ringIn, a, e]

theorem State.ringIn_unaddressed (a : s.addressed = false) (k : State → State) : s.ringIn f k = s.pass f := by
  simp [State.ringIn, a]

theorem State.ringIn_hears (a : s.Hears f.hdr) (k : State → State) : s.ringIn f k = k s := by
  simp [State.ringIn, a.addressed, a.foreign]

theorem State.forwardThen_room (r : s.ring.forwarding.length < Config.forwardingPlaces) (k : State → State) :
    s.forwardThen f k = k (s.forwarded f) := by
  simp [State.forwardThen, State.accept, r, State.forwarded]

theorem State.forwardThen_full (r : ¬s.ring.forwarding.length < Config.forwardingPlaces) (k : State → State) :
    s.forwardThen f k = s.dropFrame := by
  simp [State.forwardThen, State.accept, r]

theorem State.pass_room (r : s.ring.forwarding.length < Config.forwardingPlaces) : s.pass f = s.forwarded f :=
  State.forwardThen_room r _

theorem State.pass_full (r : ¬s.ring.forwarding.length < Config.forwardingPlaces) : s.pass f = s.dropFrame :=
  State.forwardThen_full r _

theorem State.copyIn_consumes (a : s.Consumes f.hdr) (k : State → State) : s.copyIn f k = k s := by
  simp [State.copyIn, State.ringIn_hears a.toHears, a.mine]

theorem State.copyIn_copies (a : s.Copies f.hdr) (k : State → State) : s.copyIn f k = k (s.forwarded f) := by
  simp [State.copyIn, State.ringIn_hears a.toHears, a.other, State.forwardThen_room a.room]

theorem State.requestIn_takes (a : s.Takes f.hdr) (k : State → State) :
    s.requestIn f k = k (s.mapRing fun r => { r with answering := true }) := by
  simp [State.requestIn, State.ringIn_hears a.toHears, a.mine, a.place]

theorem State.requestIn_other (a : s.Hears f.hdr) (o : f.hdr.dst ≠ s.ring.strap) (k : State → State) :
    s.requestIn f k = s.pass f := by
  simp [State.requestIn, State.ringIn_hears a, o]

theorem State.requestIn_full (a : s.Consumes f.hdr) (p : s.ring.hasPlace = false) (k : State → State) :
    s.requestIn f k = s.mapRing fun r => { r with discards := min (r.discards + 1) 65535 } := by
  simp [State.requestIn, State.ringIn_hears a.toHears, a.mine, p]

/-- An accepted MREQ payload is carried out with its place in the response queue taken (R191, R192). -/
theorem State.payloadIn_accepts (a : s.Accepts h) (payload : List Word) (body : State → State) :
    s.payloadIn h payload body = body (s.mapRing fun r => { r with answering := true }) := by
  unfold State.payloadIn
  rw [State.requestIn_takes (f := ⟨h, 8, payload⟩) a.toTakes]
  have n := a.supervisor
  simp only [State.notSupervisor, State.station, State.site] at n ⊢
  simp [n]

/-- A taken MREQ of another node is refused, whatever its payload (R191 step 2). -/
theorem State.payloadIn_stranger (a : s.Takes h) (n : s.notSupervisor h = true) (payload : List Word)
    (body : State → State) :
    s.payloadIn h payload body = s.refuse h (requestCode h payload).toNat .notSupervisor := by
  unfold State.payloadIn
  rw [State.requestIn_takes (f := ⟨h, 8, payload⟩) a]
  simp only [State.notSupervisor, State.station, State.site] at n ⊢
  simp only [n, State.mapRing_tables, if_true]
  rfl

theorem State.mreqIn_accepts (a : s.Accepts h) (code : Word) (content : List Word) (body : State → State) :
    s.mreqIn h code content body = body (s.mapRing fun r => { r with answering := true }) :=
  State.payloadIn_accepts a _ body

theorem State.mreqIn_stranger (a : s.Takes h) (n : s.notSupervisor h = true) (code : Word) (content : List Word)
    (body : State → State) : s.mreqIn h code content body = s.refuse h code.toNat .notSupervisor :=
  State.payloadIn_stranger a n _ body

/-! ## Answers -/

@[simp] theorem State.answer_handOvers (s : State) (h : Header) (n : Nat) (r : Result) (c : Bool) (d : Content) :
    (s.answer h n r c d).handOvers = s.handOvers := rfl

/-- An answer takes the place kept for it, wherever the taking stood. -/
theorem State.answer_taking (s : State) (h : Header) (n : Nat) (r : Result) (c : Bool) (d : Content) :
    (s.mapRing fun r => { r with answering := true }).answer h n r c d = s.answer h n r c d := rfl

end Sys2Proof.Machine
end

