-- ==== Sys2Proof/Laws/Cooling.lean ====
section
/-! SUPPORT. What the allocator's operations do to its table and queue: where an item goes, and that each keeps them in
order (R155 to R160). -/

set_option Elab.async false

namespace Sys2Proof.Machine

variable {s : State} {c : Cooling}

/-! ## Where an item goes (R157) -/

/-- An item is queued behind the pass of an earlier one, or taken at once. -/
theorem State.requestCooling_cases (s : State) (r : CoolRequest) :
    s.passDue = true ∧ s.requestCooling r = s.emit (.request r) ∨
      s.passDue = false ∧ s.requestCooling r = (s.placeRequest r).endItem := by
  unfold State.requestCooling
  split
  · exact .inl ⟨‹_›, rfl⟩
  · exact .inr ⟨Bool.eq_false_iff.2 ‹_›, rfl⟩

/-- A pass is due for no item of a state without hand-overs. -/
@[simp] theorem State.passDue_quiescent (h : s.quiescent) : s.passDue = false := by
  simp only [State.quiescent] at h
  simp [State.passDue, h]

/-- One step of a service pass: a grant with the rest of the pass behind it, or the pass's end. -/
theorem State.servicePass_cases (s : State) :
    (∃ t, ({ s with handOvers := .serving :: s.handOvers } : State).grantHead = some t ∧ s.servicePass = t) ∨
      ({ s with handOvers := .serving :: s.handOvers } : State).grantHead = none ∧ s.servicePass = s := by
  unfold State.servicePass
  split
  · exact .inl ⟨_, ‹_›, rfl⟩
  · exact .inr ⟨‹_›, rfl⟩

/-! ## Table and queue in order -/

/-- Fewer entries hold no more. -/
theorem heldSum_sublist {l m : List Alloc} (h : l.Sublist m) :
    (l.map Alloc.amount).sum ≤ (m.map Alloc.amount).sum := by
  induction h with
  | slnil => exact Nat.le_refl _
  | cons a _ ih => simp only [List.map_cons, List.sum_cons]; omega
  | cons_cons a _ ih => simp only [List.map_cons, List.sum_cons]; omega

/-- A request joins the others. -/
theorem joinPart_perm (r : CoolRequest) (l : List CoolRequest) : (joinPart r l).Perm (r :: l) := by
  induction l with
  | nil => exact .refl _
  | cons q l ih =>
    unfold joinPart
    split
    · exact .refl _
    · exact (ih.cons q).trans (.swap _ _ _)

/-- Entries taken away leave the rest in order. -/
theorem Cooling.Orderly.remove (h : c.Orderly) (p : Alloc → Bool) : ({ c with table := c.table.filter p }).Orderly where
  holders := h.holders.sublist (List.filter_sublist.map _)
  requests := h.requests
  stamps := h.stamps.sublist (List.filter_sublist.map _)
  counted a ha := h.counted a (List.mem_filter.1 ha).1
  within := Nat.le_trans (heldSum_sublist List.filter_sublist) h.within

/-- Requests taken away leave the rest in order. -/
theorem Cooling.Orderly.leave (h : c.Orderly) (p : CoolRequest → Bool) :
    ({ c with queue := c.queue.filter p }).Orderly where
  holders := h.holders
  requests := h.requests.sublist (List.filter_sublist.map _)
  stamps := h.stamps
  counted := h.counted
  within := h.within

/-- A holder's request takes the place of the one it has. -/
theorem Cooling.Orderly.place (h : c.Orderly) (r : CoolRequest) :
    ({ c with queue := joinPart r (c.queue.filter fun q => q.holder != r.holder) }).Orderly where
  holders := h.holders
  requests := by
    refine (((joinPart_perm r _).map _).nodup_iff).2 (List.nodup_cons.2 ⟨?_, ?_⟩)
    · simp
    · exact h.requests.sublist (List.filter_sublist.map _)
  stamps := h.stamps
  counted := h.counted
  within := h.within

/-- A grant that fits the free capacity keeps the order. -/
theorem Cooling.Orderly.grant (h : s.cool.Orderly) {a : Holder} {n : Nat} (hn : s.cool.fits n = true)
    (f : Option PosAlloc) (b : Bool) : (s.grantEntry a n f b).cool.Orderly where
  holders := by
    simp only [State.grantEntry, State.mapCool_cool, List.map_append, List.map_cons, List.map_nil, List.nodup_append,
      List.mem_singleton]
    refine ⟨h.holders.sublist (List.filter_sublist.map _), by simp, ?_⟩
    rintro x hx _ rfl rfl
    obtain ⟨e, he, k⟩ := List.mem_map.1 hx
    simp [k] at he
  requests := h.requests.sublist (List.filter_sublist.map _)
  stamps := by
    simp only [State.grantEntry, State.mapCool_cool, List.map_append, List.map_cons, List.map_nil, List.pairwise_append,
      List.mem_singleton]
    refine ⟨h.stamps.sublist (List.filter_sublist.map _), List.pairwise_singleton _ _, ?_⟩
    rintro x hx _ rfl
    obtain ⟨e, he, rfl⟩ := List.mem_map.1 hx
    exact Nat.lt_succ_of_le (h.counted e (List.mem_filter.1 he).1)
  counted := by
    intro e he
    simp only [State.grantEntry, State.mapCool_cool, List.mem_append, List.mem_singleton] at he ⊢
    rcases he with he | rfl
    · exact Nat.le_succ_of_le (h.counted e (List.mem_filter.1 he).1)
    · exact Nat.le_refl _
  within := by
    have k := heldSum_sublist (List.filter_sublist (l := s.cool.table) (p := fun e => e.holder != a))
    have hn := of_decide_eq_true hn
    simp only [Cooling.heldSum] at hn
    simp only [State.grantEntry, State.mapCool_cool, Cooling.heldSum, List.map_append, List.map_cons, List.map_nil,
      List.sum_append, List.sum_cons, List.sum_nil]
    omega

/-- An entry that changes neither its holder nor its stamp, to an amount no greater, keeps the order. -/
theorem Cooling.Orderly.change (h : s.cool.Orderly) (a : Holder) {f : Alloc → Alloc}
    (hf : ∀ e, (f e).holder = e.holder ∧ (f e).stamp = e.stamp ∧ (f e).amount ≤ e.amount) :
    (s.mapAlloc a f).cool.Orderly := by
  have g : ∀ e : Alloc, (if e.holder = a then f e else e).holder = e.holder ∧
      (if e.holder = a then f e else e).stamp = e.stamp ∧ (if e.holder = a then f e else e).amount ≤ e.amount := by
    intro e; split
    · exact hf e
    · exact ⟨rfl, rfl, Nat.le_refl _⟩
  have hs : (s.cool.table.map fun e => if e.holder = a then f e else e).map Alloc.stamp = s.cool.table.map Alloc.stamp := by
    simp only [List.map_map]; exact List.map_congr_left fun e _ => (g e).2.1
  constructor
  · rw [show (s.mapAlloc a f).cool.table.map Alloc.holder = s.cool.table.map Alloc.holder by
      simp only [State.mapAlloc, State.mapCool_cool, List.map_map]; exact List.map_congr_left fun e _ => (g e).1]
    exact h.holders
  · exact h.requests
  · exact hs ▸ h.stamps
  · intro e he
    simp only [State.mapAlloc, State.mapCool_cool] at he ⊢
    obtain ⟨d, hd, rfl⟩ := List.mem_map.1 he
    exact (g d).2.1 ▸ h.counted d hd
  · refine Nat.le_trans ?_ h.within
    simp only [Cooling.heldSum, State.mapAlloc, State.mapCool_cool, List.map_map]
    generalize s.cool.table = l
    induction l with
    | nil => exact Nat.le_refl _
    | cons e l ih =>
      simp only [List.map_cons, List.sum_cons]
      exact Nat.add_le_add (g e).2.2 ih

end Sys2Proof.Machine
end

