-- ==== Sys2Proof/Laws/Sales.lean ====
section
/-! SUPPORT. What the vent mass of a record's closure is (R52, R53, R177, R178). -/

namespace Sys2Proof.Machine

variable {s : State} {r : SaleRecord}

/-- With no vent mass stored it is computed at the closure. -/
@[simp] theorem State.ventAtClosure_of_none (h : r.vent = none) : s.ventAtClosure r = s.ventNow r := by
  simp [State.ventAtClosure, h]

/-- A stored vent mass is the one used. -/
@[simp] theorem State.ventAtClosure_of_stored {v : VentMass} (h : r.vent = some v) : s.ventAtClosure r = v := by
  simp [State.ventAtClosure, h]

end Sys2Proof.Machine
end

