-- ==== Sys2Proof/WellFormed.lean ====
section
/-! DEFINITION. Well-formed commands: the frames each row can stand for (R187, R191, section 12.10).  The meanings are
total and do not rest on these checks. -/

namespace Sys2Proof

/-- Content words of a request by its code; none for TABLE_WRITE, whose length follows from its segment, and for a code
that is no request (sections 12.4 and 12.10). -/
def requestLength : Nat → Option Nat
  | 1 | 5 | 17 | 20 | 32 | 33 | 34 => some 0
  | 2 | 3 | 4 | 6 | 11 | 12 | 13 | 16 | 21 | 22 | 23 | 24 | 25 | 26 | 27 | 28 | 29 | 30 | 31 => some 1
  | 7 | 9 | 14 | 18 | 19 => some 2
  | 15 => some 3
  | 10 => some 6
  | _ => none

/-- A payload fits a frame (R187). -/
def payloadFits (l : List Word) : Bool := l.length ≤ 64

/-- Code and content are those of a request of the part (R191 step 3); a TABLE_WRITE carries at least kind, slot and
segment. -/
def knownRequest (code : Word) (content : List Word) : Bool :=
  if code.toNat = 8 then 3 ≤ content.length else requestLength code.toNat == some content.length

/-- A payload is that of a request of the part (R191 step 3). -/
def knownPayload : List Word → Bool
  | [] => false
  | code :: content => knownRequest code content

/-- A command is one the ring, a timer or a pin can bring. -/
def Instr.wellFormed : Instr → Bool
  | .sample _ l => 1 ≤ l.length && l.length ≤ 4
  | .unknownPayRequest _ request _ _ => request.toNat != 1 && request.toNat != 2
  | .forwardedFrame f => payloadFits f.payload && !(1 ≤ f.kind.toNat && f.kind.toNat ≤ 4)
  | .badFrame ws => Machine.badWords ws
  | .ownFrameStripped f => payloadFits f.payload
  | .unknownMreq _ code content =>
    (code.isSome || content.isEmpty) && payloadFits (code.toList ++ content) && !knownPayload (code.toList ++ content)
  | .tableWrite _ _ _ _ content => content.length ≤ 60
  | .total _ _ _ | .link _ _ _ _ _ | .command _ _ _ | .authorize _ _ _ _ _ _ _ | .cancel _ _ _ | .beacon _ _ _ _
  | .statusRead _ | .positionRead _ _ | .bankRead _ _ | .compressorRead _ _ | .coolingRead _ | .tableQuery _ _
  | .tableClear _ _ _ | .tableActivate _ _ _ | .contractWrite _ _ _ _ _ _ | .contractRead _ _ | .contractDelete _ _
  | .pointRead _ _ | .pointManual _ _ _ | .reactionWrite _ _ _ _ | .reactionRead _ _ | .logPeek _ | .logRead _ _
  | .logRelease _ _ | .eventTake _ | .eventClear _ _ | .eventEnable _ _ | .positionStop _ _ | .positionDisable _ _
  | .positionEnable _ _ | .positionReset _ _ | .compressorReset _ _ | .compressorDisable _ _ | .compressorEnable _ _
  | .bankDisable _ _ | .bankEnable _ _ | .tripSet _ | .tripReset _ | .restart _ | .pointDeadlineExpiry _
  | .refreshDeadlineExpiry _ | .discrepancyDeadlineExpiry _ | .tripSettleExpiry | .coupleTimerExpiry _
  | .holdLimitExpiry _ | .pulseOpenEnd _ | .pulseSettleEnd _ | .ventTimerExpiry _ | .linkTimerExpiry _
  | .meterDeadlineExpiry _ | .startTimerExpiry _ | .runTimerExpiry _ | .lockoutExpiry _ | .categorySettleExpiry _
  | .graceTimerExpiry _ | .minuteAdvance | .transmitComplete | .tripLineLow | .powerUp _ _ | .resetInput _ _
  | .tripLineHigh => true

end Sys2Proof
end

