-- ==== Sys2Proof/Tests/Slice0.lean ====
section
/-! SUPPORT. The model's own tests: the smoke test of the well-formedness checks, small one-step tests, and for every
statement with hypotheses a state and operands that meet them. -/

namespace Sys2Proof.Tests

open Sys2Proof Sys2Proof.Machine

set_option Elab.async false

/-! ## A small station

Node 1 is the part, 10 the supervisor, 11 the terminal, 20 the nozzle, 30 the fill valve and 31 the compressor drive of
a SITE table in which position 0 is an H70 position. -/

/-- A sensor point entry. -/
def sensorEntry (node fn scope : Word) : List Word := [node, 0, fn, scope, 1000, 0, 0, 0, 0, 0, 0, 0, 0, 0, 0]

/-- An actuator point entry with its feedback point. -/
def driveEntry (node fn scope prop feedback : Word) : List Word :=
  [node, 0, fn, scope, 0, 0, 0, 0, 0, 0, prop, 0, 500, feedback, 100]

/-- Points 0 to 6: nozzle, fill valve, run drive, detector, outlet pressure, the valve's feedback, the drive's. -/
def siteWords : List (Option (List Word)) :=
  [some (sensorEntry 20 4 256 ++ driveEntry 30 13 256 1 5 ++ driveEntry 31 16 512 0 6 ++ sensorEntry 32 11 0),
    some (sensorEntry 21 1 256 ++ sensorEntry 33 12 256 ++ sensorEntry 34 12 512)] ++
  List.replicate 46 none ++
  [some [0, 4500, 3500, 1800, 2, 120], some [10000, 0, 30000, 0, 20000],
    some [1000, 1000, 1000, 1000, 1000, 1000, 0, 0, 10, 0], some [0, 180, 40, 11, 50, 6000]]

/-- A class header with what the statements' cases ask for. -/
def headerWords : List Word :=
  [7000, 8750, 7700, 1000, 850, 50, 150, 1000, 3000, 50, 5000, 3, 32, 20, 900, 300, 15, 0, 50, 0, 12000, 200, 5, 50,
    1000, 500, 0, 60000, 0, 40000, 30, 15000, 10000, 15000]

/-- Combinations of band 0: T40 and T30 of H70. -/
def comboWords : List Word := [300, 300, 200, 7000, 380, 240, 300, 200, 7000, 300]

/-- An ACTIVE slot. -/
def activeSlot (segments : List (Option (List Word))) : Slot := ⟨.active, segments, some 1, 0, none⟩

/-- A kind with slot A ACTIVE and slot B without content. -/
def activeKind (n : Nat) (segments : List (Option (List Word))) : KindStore := ⟨activeSlot segments, Slot.empty n, 1⟩

/-- A TARIFF slot's content that passes validation: eight bands, every price 1. -/
def tariffWords : List (Option (List Word)) :=
  let band := fun (start : Word) => start :: [0, 1, 0, 1, 0, 1, 0, 1, 0, 1, 0, 1, 0, 1, 0, 1]
  [some (band 0 ++ band 180 ++ [0]), some (band 360 ++ band 540), some (band 720 ++ band 900),
    some (band 1080 ++ band 1260)]

/-- A bind reference to the slots A. -/
def bindA : Bind := ⟨⟨.a, 1⟩, ⟨.a, 1⟩, ⟨.a, 1⟩⟩

/-- A sale record of position 0 in a state. -/
def sale (t : RecordState) : SaleRecord where
  state       := t
  number      := 1
  position    := 0
  cls         := .h70
  card        := .retail
  contract    := none
  reference   := 7
  preset      := .none
  presetValue := 0
  effective   := 12000
  reservation := none
  price       := 0
  bind        := bindA
  start       := ⟨500, 100⟩
  finish      := none
  startCat    := none
  finalCat    := none
  reason      := none
  reasonCond  := none
  gross       := 0
  vent        := none
  net         := 0
  billed      := 0
  overrun     := 0
  amount      := 0
  marks       := ⟨false, false, false, false⟩
  notified    := false

/-- A contract with an id and a reserved mass. -/
def contractOf (id reserved : Nat) : Contract := ⟨id, true, 1, true, true, 60000, 60000, reserved, 0⟩

/-- A fresh sensor record. -/
def freshRecord (v : Int) : PointRecord := .sensor ⟨v, .good, false, .fresh, some 900, none⟩

/-- An actuator record under an owner. -/
def driveRecord (o : Owner) : PointRecord := .actuator ⟨0, 0, false, o, 0, 700, .settling, some 100⟩

/-- The station: every table ACTIVE, the time valid, the nozzle holstered, one good pressure, and an idle ring-out. -/
def base : State :=
  { State.reset with
    ring := { State.reset.ring with sending := none }
    tables :=
      { gas := activeKind 35 [], protocol := activeKind 8 [some headerWords, some headerWords, some comboWords],
        tariff := activeKind 4 tariffWords, site := activeKind 52 siteWords }
    points :=
      { State.reset.points with
        records :=
          [freshRecord 0, driveRecord .auto, driveRecord .auto, freshRecord 0, freshRecord 300, freshRecord 0,
            freshRecord 0] ++ List.replicate 185 .empty
        pairs := Six.all ⟨.single, ⟨300, .good, false⟩⟩ }
    time := ⟨0, true, 100, 500, 0, 0⟩ }

/-- The supervisor's header. -/
def sup : Header := ⟨1, 10, 7⟩

/-- The terminal's header. -/
def term : Header := ⟨1, 11, 3⟩

/-- A header of frames copied from a node. -/
def from_ (src : NodeAddr) : Header := ⟨255, src, 0⟩

/-- The fill context of position 0 changed. -/
def fill (f : Seq → Seq) : State := base.mapSeq 0 f

/-- Position 0 in a state. -/
def inState (t : PosState) : State := fill fun q => { q with state := t }

/-- Compressor 0 in a state with its timer running. -/
def compIn (t : CompState) : State := base.mapComp 0 fun r => { r with state := t, timer := some 40 }

/-- The log holds a record in its first place. -/
def withSale (t : RecordState) (s : State) : State :=
  s.mapSales fun u => { u with log := some (sale t) :: List.replicate 127 none,
                               closure := if t = .closed then [0] else [] }

/-- The station with a trip state and a settle timer where it runs. -/
def tripState (t : TripState) : State :=
  base.mapPoints fun u => { u with trip := t, settle := if t = .settling then some 20 else none }

/-- The next state of a command, if it ends so. -/
def next (c : Instr) (s : State) : Option State :=
  match exec c s with
  | .next t => some t
  | _ => none

/-! ## Hypotheses about frames, as tests -/

/-- `Hears` as a test. -/
def hears (s : State) (h : Header) : Bool := s.handOvers.isEmpty && s.addressed && h.src != s.ring.strap

/-- `Consumes` as a test. -/
def consumes (s : State) (h : Header) : Bool := hears s h && h.dst == s.ring.strap

/-- `Takes` as a test. -/
def takes (s : State) (h : Header) : Bool := consumes s h && s.ring.hasPlace

/-- `Accepts` as a test. -/
def accepts (s : State) (h : Header) : Bool := takes s h && !s.notSupervisor h

/-- `Copies` as a test. -/
def copies (s : State) (h : Header) : Bool :=
  hears s h && h.dst != s.ring.strap && s.ring.forwarding.length < Config.forwardingPlaces

theorem hears_of {s : State} {h : Header} (e : hears s h = true) : s.Hears h := by
  simp only [hears, Bool.and_eq_true, List.isEmpty_iff, bne_iff_ne, ne_eq] at e
  exact ⟨e.1.1, e.1.2, e.2⟩

theorem consumes_of {s : State} {h : Header} (e : consumes s h = true) : s.Consumes h := by
  simp only [consumes, Bool.and_eq_true, beq_iff_eq] at e
  exact ⟨hears_of e.1, e.2⟩

theorem takes_of {s : State} {h : Header} (e : takes s h = true) : s.Takes h := by
  simp only [takes, Bool.and_eq_true] at e
  exact ⟨consumes_of e.1, e.2⟩

theorem accepts_of {s : State} {h : Header} (e : accepts s h = true) : s.Accepts h := by
  simp only [accepts, Bool.and_eq_true, Bool.not_eq_true'] at e
  exact ⟨takes_of e.1, e.2⟩

theorem copies_of {s : State} {h : Header} (e : copies s h = true) : s.Copies h := by
  simp only [copies, Bool.and_eq_true, bne_iff_ne, ne_eq, decide_eq_true_eq] at e
  exact ⟨hears_of e.1.1, e.1.2, e.2⟩

/-- The supervisor's requests are carried out at the station. -/
theorem base_accepts : base.Accepts sup := accepts_of (by decide)

/-- Frames of the nozzle's node are copied. -/
theorem base_copies : base.Copies (from_ 20) := copies_of (by decide)

/-- The function and scope of sensor point `i`, where a frame of its node, channel 0, is copied and taken for it. -/
def reading (s : State) (node : NodeAddr) (i : Nat) : Option (Fn × EventScope) :=
  if copies s (from_ node) = true ∧ s.pointAt node.toNat 0 = some i ∧ (s.live i).isSome = true then
    (s.entry i).map fun e => (e.fn, e.scope)
  else none

theorem reads_of {s : State} {node : NodeAddr} {i : Nat} {f : Fn} {sc : EventScope} (v : Word)
    (e : reading s node i = some (f, sc)) :
    ∃ b e old, s.Reads (from_ node) ⟨0, .ok, v⟩ b i e old ∧ e.fn = f ∧ e.scope = sc := by
  unfold reading at e
  split at e
  · rename_i h
    obtain ⟨x, hx, hf⟩ := Option.map_eq_some_iff.1 e
    obtain ⟨old, ho⟩ := Option.isSome_iff_exists.1 h.2.2
    obtain ⟨rfl, rfl⟩ := Prod.mk.injEq .. ▸ hf
    exact ⟨_, x, old, ⟨.copied (copies_of h.1), h.2.1, hx, ho⟩, rfl, rfl⟩
  · cases e

/-- A state with the first points of its SITE table, and their records, replaced. -/
def withPoints (points : List (List Word)) (records : List PointRecord) (s : State) : State :=
  { s with
    tables := { s.tables with
      site := activeKind 52
        (some (points.take 4).flatten :: some (points.drop 4).flatten :: siteWords.drop 2) }
    points := { s.points with records := records ++ List.replicate (192 - records.length) .empty } }

/-! ## Well-formedness: one ill-formed command for each check -/

theorem test_sample_without_readings : (Instr.sample sup []).wellFormed = false := by decide

theorem test_sample_of_five :
    (Instr.sample sup (List.replicate 5 ⟨0, .ok, 0⟩)).wellFormed = false := by decide

theorem test_pay_request_known : (Instr.unknownPayRequest sup 1 0 0).wellFormed = false ∧
    (Instr.unknownPayRequest sup 2 0 0).wellFormed = false := by decide

theorem test_forwarded_kind_taken : (Instr.forwardedFrame ⟨sup, 4, []⟩).wellFormed = false := by decide

theorem test_forwarded_too_long : (Instr.forwardedFrame ⟨sup, 77, List.replicate 65 0⟩).wellFormed = false := by decide

theorem test_own_too_long : (Instr.ownFrameStripped ⟨sup, 1, List.replicate 65 0⟩).wellFormed = false := by decide

theorem test_bad_frame_that_is_good :
    (Instr.badFrame (Frame.words ⟨sup, 9, [5]⟩)).wellFormed = false := by decide +kernel

theorem test_unknown_mreq_known : (Instr.unknownMreq sup (some 1) []).wellFormed = false := by decide

theorem test_unknown_mreq_too_long :
    (Instr.unknownMreq sup (some 1) (List.replicate 64 1)).wellFormed = false := by decide

theorem test_unknown_mreq_codeless : (Instr.unknownMreq sup none [35]).wellFormed = false := by decide

theorem test_table_write_too_long :
    (Instr.tableWrite sup 0 0 0 (List.replicate 61 0)).wellFormed = false := by decide

theorem test_well_formed : (Instr.sample sup [⟨0, .ok, 0⟩]).wellFormed = true ∧
    (Instr.unknownMreq sup (some 35) []).wellFormed = true ∧ (Instr.unknownMreq sup none []).wellFormed = true ∧
    (Instr.unknownPayRequest term 3 0 0).wellFormed = true ∧ (Instr.badFrame []).wellFormed = true := by decide

/-- The table gives no row a bit, so no word spells a command. -/
theorem test_no_word_spells_a_command : decodeTableWord 16 0 = none := by decide

/-! ## One step each -/

/-- R7: a reading above the range is clamped and marked. -/
theorem test_sample_clamps : ((next (.sample (from_ 21) [⟨0, .ok, 10001⟩]) base).bind fun t => t.live 4) =
    some ⟨10000, .good, true, .fresh, some 1000, none⟩ := by decide +kernel

/-- R10: a FAULT reading leaves the stale substitute, the top of the range. -/
theorem test_sample_fault : ((next (.sample (from_ 21) [⟨0, .fault, 300⟩]) base).bind fun t => t.live 4) =
    some ⟨10000, .invalid, false, .stale, none, none⟩ := by decide +kernel

/-- R76: an accepted AUTHORIZE takes sale number 1 and starts the couple timer of 40,000 ms. -/
theorem test_authorize : (next (.authorize term 0 7 0 0 0 0) base).map (fun t =>
      ((t.seq 0).state, (t.seq 0).sale, (t.seq 0).couple, t.sales.counter)) =
    some (.authorized, some 1, some 40000, 1) := by decide +kernel

/-- R172: a terminal that is not the position's is refused. -/
theorem test_authorize_not_terminal : (next (.authorize ⟨1, 12, 3⟩ 0 7 0 0 0 0) base).map (fun t => t.ring.sending) =
    some (some (.response (.payResult 12 1 0 7 .notTerminal false none))) := by decide +kernel

/-- R175: a CANCEL in AUTHORIZED frees the record. -/
theorem test_cancel : (next (.cancel term 0 7) (withSale .reserved (inState .authorized))).map (fun t =>
      ((t.seq 0).state, t.logAt 0)) = some (.idle, none) := by decide +kernel

/-- R32: a foreign COMMAND to an AUTO point is removed and reported. -/
theorem test_command_blocked : (next (.command ⟨30, 9, 0⟩ 0 500) base).map (fun t =>
      (t.ring.forwarding, t.ring.sending, (t.flag .commandBlocked .station).map Flag.detail)) =
    some ([], some (.notice ⟨10, .commandBlocked, .station, .point 1, 1⟩), some (.point 1)) := by decide +kernel

/-- R198: a BEACON sets day and minute. -/
theorem test_beacon : (next (.beacon (from_ 10) 501 5 0) base).map (fun t => (t.time.day, t.time.minute)) =
    some (501, 5) := by decide +kernel

/-- R188: a bad frame is counted. -/
theorem test_bad_frame : (next (.badFrame []) base).map (fun t => t.ring.drops) = some 1 := by decide +kernel

/-- R191: a code that is no request is answered ARG; an MREQ of no payload words is answered too. -/
theorem test_unknown_mreq : (next (.unknownMreq sup (some 35) []) base).map (fun t => t.ring.sending) =
      some (some (.response (.mresp 10 7 35 .arg false .none))) ∧
    (next (.unknownMreq sup none []) base).map (fun t => t.ring.sending.isSome) = some true := by decide +kernel

/-- R58: content that fails a check is refused with its first failing entry: GRID_ZERO at D[1][0], entry 17. -/
theorem test_activate_invalid : (next (.tableActivate sup 0 1) (base.mapTables fun t => { t with gas :=
      { t.gas with slotB := { Slot.empty 35 with segments := List.replicate 35 (some []) } } })).map (fun t =>
        t.ring.sending) =
    some (some (.response (.mresp 10 7 9 .invalidTable false (.failedEntry 17 .gridZero)))) := by decide +kernel

/-- R182: a quota above 2,000,000 g is clamped and marked. -/
theorem test_contract_write : (next (.contractWrite sup 9 0 1 3 2000001) base).map (fun t =>
      (t.contract 9, t.ring.sending)) =
    some (some ⟨9, true, 1, true, true, 2000000, 2000000, 0, 0⟩,
      some (.response (.mresp 10 7 10 .ok true .none))) := by decide +kernel

/-- R109: a reaction below the floor is stored as the floor: OVERPRESSURE in FLOWING stays HALT. -/
theorem test_reaction_floor : (next (.reactionWrite sup 1 2 0) base).map (fun t =>
      (t.reactionOf .overpressure .flowing, t.ring.sending)) =
    some (.halt, some (.response (.mresp 10 7 15 .ok true .none))) := by decide +kernel

/-- R98: POSITION_DISABLE hands the fill valve to MANUAL. -/
theorem test_position_disable : (next (.positionDisable sup 0) base).map (fun t =>
      ((t.seq 0).state, (t.act 1).map ActRecord.owner)) = some (.outOfService, some .manual) := by decide +kernel

/-- R99: POSITION_STOP in RAMP goes to VENT with STOP_REQUEST. -/
theorem test_position_stop : (next (.positionStop sup 0) (inState .ramp)).map (fun t =>
      ((t.seq 0).state, (t.seq 0).endReason)) = some (.vent, some .stopRequest) := by decide +kernel

/-- R100: POSITION_RESET leaves HALTED for IDLE with the nozzle holstered. -/
theorem test_position_reset : (next (.positionReset sup 0) (inState .halted)).map (fun t => (t.seq 0).state) =
    some .idle := by decide +kernel

/-- R53, R100: with no valid outlet temperature the vent correction of a record reset in HOLD is computed then, DEGRADED. -/
theorem test_reset_vent : (next (.positionReset sup 0) (withSale .opened (inState .hold))).map (fun t =>
    (t.logAt 0).map fun q => ((q.vent.map VentMass.quality), q.marks.degradedPressure)) =
    some (some (some .degraded, true)) := by decide +kernel

/-- R178: at vent done the vent mass stored at VENT entry is used. -/
theorem test_stored_vent : base.ventAtClosure { sale .opened with vent := some ⟨49, .good, false⟩ } =
    ⟨49, .good, false⟩ := by decide +kernel

/-- R151: COMPRESSOR_RESET starts the minimum off time of 20,000 ms. -/
theorem test_compressor_reset : (next (.compressorReset sup 0) (compIn .faulted)).map (fun t =>
      ((t.comp 0).state, (t.comp 0).timer)) = some (.lockout, some 20000) := by decide +kernel

/-- R136: a bank without a valid pressure point returns UNKNOWN. -/
theorem test_bank_enable : (next (.bankEnable sup 5) (base.mapBank 5 fun b => { b with state := .disabled })).map
      (fun t => (t.bank 5).state) = some .unknown := by decide +kernel

/-- R136: BANK_DISABLE is answered before R135 takes the waiter out, whose SALE frame with NO_SUPPLY follows. -/
theorem test_bank_disable_answers_first :
    let waiting := ((withSale .reserved (inState .admitting)).mapBank 5 fun b =>
      { b with state := .available, queue := [0] }).setDraw 0 ⟨none, some 5, some 0⟩
    (next (.bankDisable sup 5) waiting).map (fun t =>
        (t.ring.sending, t.ring.responses.map fun f => match f with
          | .sale _ r => r.reason
          | _ => none)) =
      some (some (.response (.mresp 10 7 30 .ok false .none)), [some .noSupply]) := by decide +kernel

/-- R97: at a HALT the bank valve, whose safe value is open, passes to SAFE; the closed value the release writes is stored, and
no COMMAND frame for the valve is placed. -/
theorem test_halt_stores_the_bank_valve :
    let s := withPoints
      [sensorEntry 20 4 256, driveEntry 30 13 256 1 65535, [35, 0, 15, 256, 0, 0, 0, 0, 0, 5, 0, 1, 500, 65535, 100]]
      [freshRecord 2, .actuator ⟨0, 0, false, .auto, 0, 700, .settling, some 100⟩,
        .actuator ⟨1, 1, true, .auto, 1, 700, .matched, none⟩]
      ((inState .ramp).setDraw 0 ⟨some 5, none, some 0⟩)
    (next (.discrepancyDeadlineExpiry 1) s).map (fun t => ((t.seq 0).state, t.act 2, t.ring.commands)) =
      some (.halted, some ⟨0, 1, true, .safe, 1, 700, .matched, none⟩, []) := by decide +kernel

/-- R86: with the level active already, the SENSOR_STALE of the OVERPRESSURE test alone is answered behind the target, 300 with
300 kPa/s for 1,000 ms, which the fill it ENDs keeps. -/
theorem test_stale_test_follows_the_target :
    let s := (withSale .opened (fill fun q => { q with
        state := .ramp, rampBase := some ⟨300, .good, false⟩, category := some .t40, band := some 0,
        overTest := .within, active := ⟨false, true, false, false⟩ })).mapTime fun u => { u with count := 1000 }
    (next (.sample (from_ 21) [⟨0, .fault, 300⟩])
        (s.setReactions (s.reactions.set (cellIndex .sensorStale .flowing) .finish))).map (fun t =>
        ((t.seq 0).state, (t.seq 0).target.map fun x => x.target.num)) =
      some (.vent, some 330) := by decide +kernel

/-- R33: TRIP_SET takes the fill valve from AUTO to SAFE. -/
theorem test_trip_set : (next (.tripSet sup) base).map (fun t => (t.points.trip, (t.act 1).map ActRecord.owner)) =
    some (.latched, some .safe) := by decide +kernel

/-- R36: the fall of the line sets the latch; R37: the settle's end clears it. -/
theorem test_trip_line : (next .tripLineLow base).map (fun t => t.points.cause) = some (some .line) ∧
    (next .tripSettleExpiry (tripState .settling)).map (fun t => (t.points.trip, t.time.count)) =
      some (.clear, 20) := by decide +kernel

/-- R82: the open phase ends with the settle time of 3,000 ms. -/
theorem test_pulse_open_end : (next (.pulseOpenEnd 0) (fill fun q => { q with state := .pulse, pulse := some 50 })).map
      (fun t => ((t.seq 0).pulse, (t.seq 0).phase)) = some (some 3050, .settling) := by decide +kernel

/-- R83: a pressure of 300 below the end target goes on to RAMP with base 300. -/
theorem test_pulse_settle_end : (next (.pulseSettleEnd 0) (withSale .opened (fill fun q =>
        { q with state := .pulse, pulse := some 50, phase := .settling, band := some 0, category := some .t40 }))).map
      (fun t => ((t.seq 0).state, (t.seq 0).rampBase)) = some (.ramp, some ⟨300, .good, false⟩) := by decide +kernel

/-- R50, R51: the three steps of the worked case of section 3.6.1, and its clipped and saturated steps. -/
theorem test_valve_step : valveStep 1931 ⟨1902, .good, false⟩ 412 40 25 950 = ⟨430, false, false, false⟩ ∧
    valveStep 1937 ⟨1955, .degraded, false⟩ 430 40 25 950 = ⟨419, false, false, false⟩ ∧
    valveStep 1944 ⟨10000, .invalid, false⟩ 419 40 25 950 = ⟨419, false, false, true⟩ ∧
    valveStep 2400 ⟨2200, .good, false⟩ 940 40 25 950 = ⟨950, true, true, false⟩ ∧
    valveStep 0 ⟨29, .good, false⟩ 10 40 25 950 = ⟨0, false, true, false⟩ := by decide +kernel

/-- R94, R178: the vent timer closes the sale and leaves DONE, or IDLE with the nozzle holstered. -/
theorem test_vent_timer : (next (.ventTimerExpiry 0) (withSale .opened (fill fun q =>
        { q with state := .vent, ventTimer := some 50, endReason := some .full }))).map
      (fun t => ((t.seq 0).state, t.sales.closure)) = some (.idle, [0]) := by decide +kernel

/-- R148: the start timer faults the compressor. -/
theorem test_start_timer : (next (.startTimerExpiry 0) (compIn .starting)).map (fun t =>
      ((t.comp 0).state, (t.comp 0).lastFault)) = some (.faulted, some .startTimeout) := by decide +kernel

/-- R146: the run timer stops an UNLOADED run. -/
theorem test_run_timer : (next (.runTimerExpiry 0) (compIn .unloaded)).map (fun t =>
      ((t.comp 0).state, (t.comp 0).lastStop)) = some (.lockout, some .runComplete) := by decide +kernel

/-- R197: after minute 1439 comes minute 0 of the next day. -/
theorem test_minute_advance : (next .minuteAdvance (base.mapTime fun u => { u with minute := 1439 })).map (fun t =>
      (t.time.minute, t.time.day, t.time.mark)) = some (0, 501, 60000) := by decide +kernel

/-- R185, R74: a power-up closes the OPEN record with POWER_LOSS and its position starts in DONE. -/
theorem test_power_up : (next (.powerUp 1 true) (withSale .opened (inState .ramp))).map (fun t =>
      ((t.seq 0).state, (t.logAt 0).bind SaleRecord.reason)) = some (.done, some .powerLoss) := by decide +kernel

/-- R200: a power-up with the store lost is the reset state. -/
theorem test_power_up_lost : (next (.powerUp 1 false) State.reset) = some State.reset := by decide +kernel

/-! ## Hypotheses met: the step, arrival and requests -/

theorem witness_step_takes_the_front :
    (State.reset.setPending [.transmitComplete, .tripLineHigh]).pending = [.transmitComplete, .tripLineHigh] := rfl

theorem witness_idle_step : base.pending = [] ∧ base.dueCommand = none ∧ State.reset.dueCommand = none ∧
    (tripState .settling).dueCommand = none ∧
    ((tripState .settling).mapTime fun u => { u with count := 20 }).dueCommand = some .tripSettleExpiry := by
  decide +kernel

theorem witness_stopped_timer : base.quiescent ∧ State.reset.quiescent ∧ State.reset.live 191 = none ∧
    State.reset.act 191 = none ∧ State.reset.points.settle = none ∧ (base.live 0).bind LiveRecord.deadline = some 900 ∧
    (base.act 5) = none ∧ (base.seq 5).couple = none ∧ (base.seq 5).link = none ∧ (base.comp 1).timer = none ∧
    (compIn .lockout).quiescent ∧ ((compIn .lockout).comp 0).state ≠ .starting ∧ State.reset.time.valid = false := by
  unfold State.quiescent
  decide +kernel

theorem witness_own_and_unaddressed :
    (Instr.coolingRead ⟨1, 1, 0⟩).frame.isSome = true ∧ base.quiescent ∧ base.addressed = true ∧
    (base.mapRing fun r => { r with strap := 255 }).addressed = false ∧
    (base.mapRing fun r => { r with strap := 0, forwarding := List.replicate 4 ⟨sup, 9, []⟩ }).addressed = false := by
  unfold State.quiescent
  decide +kernel

theorem witness_other_traffic : base.Hears ⟨30, 9, 0⟩ ∧ base.Hears ⟨1, 9, 0⟩ ∧
    (base.mapRing fun r => { r with forwarding := List.replicate 4 ⟨sup, 9, []⟩ }).Hears ⟨30, 9, 0⟩ :=
  ⟨hears_of (by decide), hears_of (by decide), hears_of (by decide)⟩

theorem witness_bad_frame : badWords [] = true ∧ base.quiescent ∧ base.events.flags.length = 46 ∧ base.ring.Served := by
  unfold State.quiescent Ring.Served
  decide +kernel

theorem witness_answer_is_placed : base.ring.sending = none ∧ base.ring.Served ∧ State.reset.ring.sending ≠ none := by
  unfold Ring.Served
  decide +kernel

theorem witness_stranger : (Instr.statusRead ⟨1, 12, 0⟩).request = some (⟨1, 12, 0⟩, 1) ∧ base.Takes ⟨1, 12, 0⟩ ∧
    base.notSupervisor ⟨1, 12, 0⟩ = true := ⟨by decide, takes_of (by decide), by decide⟩

/-- The station with every place of the response queue taken. -/
def fullRing : State :=
  base.mapRing fun r => { r with
    responses := List.replicate 8 (.payResult 11 1 0 0 .ok false none), sending := some (.trip ⟨false, none⟩) }

theorem witness_full_response_queue : (Instr.authorize term 0 7 0 0 0 0).asks = some term ∧ fullRing.Consumes term ∧
    fullRing.ring.hasPlace = false := ⟨by decide, consumes_of (by decide), by decide⟩

theorem witness_unknown_request : base.Accepts sup ∧ base.Takes term := ⟨base_accepts, takes_of (by decide)⟩

theorem witness_bad_index : base.Accepts sup ∧ base.site.isSome = true ∧ State.reset.Accepts sup ∧
    State.reset.site = none ∧ base.entry 191 = none ∧ 5 < (6 : Word).toNat ∧ (5 : Word).toNat ≤ 5 ∧ 1 < (2 : Word).toNat ∧
    (1 : Word).toNat ≤ 1 ∧ 191 < (192 : Word).toNat ∧ (191 : Word).toNat ≤ 191 :=
  ⟨base_accepts, by decide, accepts_of (by decide), by decide, by decide, by decide, by decide, by decide, by decide,
    by decide, by decide⟩

theorem witness_table_query : base.Accepts sup ∧ kindOfWord 3 = some .site ∧ 3 < (4 : Word).toNat :=
  ⟨base_accepts, rfl, by decide⟩

theorem witness_reads : base.Accepts sup ∧ base.site.isSome = true ∧ (5 : Word).toNat = (5 : Pos).val ∧
    (1 : Word).toNat = (1 : Comp).val ∧ (base.entry 6).isSome = true ∧ (base.live 6).isSome = true ∧
    (base.entry 2).isSome = true ∧ (base.act 2).isSome = true ∧ conditionOfCode (13 : Word).toNat = some .ventTimeout ∧
    conditionOfCode (1 : Word).toNat = some .overpressure ∧ conditionOfCode (14 : Word).toNat = none ∧
    conditionOfCode (0 : Word).toNat = none := ⟨base_accepts, by decide +kernel⟩

/-- A closed record in the log and a contract. -/
def closed : State :=
  (withSale .closed base).mapSales fun u => { u with contracts := [contractOf 9 0] }

theorem witness_records : closed.Accepts sup ∧ closed.sales.closure = [0] ∧ (closed.logAt 0).isSome = true ∧
    closed.slotOfNumber 1 = some 0 ∧ closed.slotOfNumber 2 = none ∧ (closed.contract 9).isSome = true ∧
    closed.contract 8 = none ∧ base.sales.closure = [] := ⟨accepts_of (by decide), by decide +kernel⟩

/-! ## Hypotheses met: tables, contracts, the log -/

theorem witness_table_change_refused : base.Accepts sup ∧ 3 < (4 : Word).toNat ∧ 1 < (2 : Word).toNat ∧
    kindOfWord 0 = some .gas ∧ slotOfWord 0 = some .a ∧ TableKind.gas.segments ≤ (35 : Word).toNat ∧
    (34 : Word).toNat < TableKind.gas.segments ∧ (List.replicate 17 (0 : Word)).length = TableKind.gas.segmentLength 34 ∧
    base.tables.gas.slotA.role = .active ∧ base.tables.gas.slotA.binds = 0 ∧
    (base.mapTables fun t => { t with gas := { t.gas with slotB := { t.gas.slotB with binds := 1 } } }).Accepts sup :=
  ⟨base_accepts, by decide, by decide, rfl, rfl, by decide, by decide, by decide, rfl, rfl, accepts_of (by decide)⟩

theorem witness_table_change : base.Accepts sup ∧ kindOfWord 0 = some .gas ∧ slotOfWord 1 = some .b ∧
    base.tables.gas.slotB.role = .standby ∧ base.tables.gas.slotB.binds = 0 ∧
    (34 : Word).toNat < TableKind.gas.segments ∧ (List.replicate 17 (0 : Word)).length = TableKind.gas.segmentLength 34 ∧
    base.tables.gas.slotB.segments.length = TableKind.gas.segments :=
  ⟨base_accepts, rfl, rfl, rfl, rfl, by decide, by decide, by decide⟩

/-- The station with content in the slots B: a TARIFF that passes validation and an unwritten GAS and SITE that are FULL. -/
def standbys : State :=
  base.mapTables fun t => { t with
    gas := { t.gas with slotB := { t.gas.slotB with segments := List.replicate 35 (some []) } }
    tariff := { t.tariff with slotB := { t.tariff.slotB with segments := tariffWords } }
    site := { t.site with slotB := { t.site.slotB with segments := List.replicate 52 (some []) } } }

theorem witness_activation_refused : standbys.Accepts sup ∧
    standbys.tables.gas.slotA.role = .active ∧ standbys.tables.gas.slotA.generation = some 1 ∧
    standbys.tables.protocol.slotB.role = .standby ∧ standbys.tables.protocol.slotB.status ≠ .full ∧
    standbys.tables.site.slotB.role = .standby ∧ standbys.tables.site.slotB.status = .full ∧ standbys.quiet = true ∧
    (standbys.mapSeq 0 fun q => { q with state := .ramp }).quiet = false ∧
    accepts (standbys.mapSeq 0 fun q => { q with state := .ramp }) sup = true ∧
    standbys.tables.gas.slotB.validate .gas 1 = some (17, .gridZero) ∧
    (standbys.tables.site.slotB.validate .site 1).isSome = true := ⟨accepts_of (by decide), by decide +kernel⟩

theorem witness_activation : standbys.Accepts sup ∧ kindOfWord 2 = some .tariff ∧ slotOfWord 1 = some .b ∧
    standbys.events.flags.length = 46 ∧ standbys.tables.tariff.slotB.role = .standby ∧
    standbys.tables.tariff.slotB.status = .full ∧ standbys.tables.tariff.slotB.validate .tariff 1 = none :=
  ⟨accepts_of (by decide), by decide +kernel⟩

/-- GAS content that passes validation, every density 1, and the same with D[1][0], entry 17, below D[0][0]. -/
def gasWords (first : Word) : List (Option (List Word)) :=
  some (first :: List.replicate 19 1) :: (List.replicate 33 (some (List.replicate 20 1)) ++ [some (List.replicate 17 1)])

/-- PROTOCOL content that passes validation, with an end pressure for the combinations of H70. -/
def protocolWords (endPress : Word) : List (Option (List Word)) :=
  let h35 := (headerWords.set 0 3500).set 1 4375 |>.set 2 3850
  let combos := [0, 0, 0, endPress, 0, 0, 0, 0, endPress, 0, 0, 0, 0, endPress, 0] ++
    [0, 0, 0, 3500, 0, 0, 0, 0, 3500, 0, 0, 0, 0, 3500, 0]
  [some (headerWords ++ [0, 100, 200, 300, 400]), some (h35 ++ [-320, -250, -160, 50])] ++
    List.replicate 6 (some combos)

/-- The required points of a station, each of its node. -/
def requiredPoints : List (List Word) :=
  let sensor := fun (node fn scope stale : Word) => [node, 0, fn, scope, 1000, stale, 0, 0, 0, 0, 0, 0, 0, 0, 0]
  let drive := fun (node fn scope prop : Word) => [node, 0, fn, scope, 0, 0, 0, 0, 0, 0, prop, 0, 500, 65535, 0]
  ([0, 1, 2, 3, 4, 5].flatMap fun (p : Word) =>
    [sensor (20 + p) 1 (256 + p) 0, sensor (30 + p) 2 (256 + p) 0, sensor (40 + p) 3 (256 + p) 0,
      sensor (50 + p) 4 (256 + p) 1, drive (60 + p) 13 (256 + p) 1, drive (70 + p) 14 (256 + p) 0]) ++
  ([0, 1].flatMap fun (c : Word) =>
    [drive (80 + c) 16 (512 + c) 0, sensor (90 + c) 7 (512 + c) 0, sensor (100 + c) 6 (512 + c) 0]) ++
  [sensor 110 8 0 0, sensor 111 9 0 0, sensor 112 10 0 0, drive 113 18 0 0]

/-- SITE content of four points to a segment. -/
def pointSegments : Nat → List (List Word) → List (Option (List Word))
  | 0, _ => []
  | n + 1, l => some (l.take 4).flatten :: pointSegments n (l.drop 4)

/-- SITE content that passes validation. -/
def validSite : List (Option (List Word)) :=
  let bank : List Word := [0, 4500, 3500, 1800, 2, 120]
  pointSegments 48 requiredPoints ++
    [some (bank ++ bank ++ bank ++ bank ++ bank ++ bank ++ [2, 0, 5, 0, 0, 0, 0] ++ [1, 3, 0, 0, 0, 0, 0]),
      some [10000, 0, 30000, 0, 20000, 10000, 0, 30000, 0, 20000], some [1000, 1000, 1000, 1000, 1000, 1000, 0, 0, 10, 0],
      some ([0, 180, 40, 11, 50, 6000] ++ (List.replicate 5 [1, 180, 0, 0, 0, 6000]).flatten)]

/-- R61 to R63, R69 to R72: content that passes, and content that fails with its first failing entry: D[1][0], entry 17, is
below D[0][0]; an end pressure above the cap, 7700. -/
theorem witness_validation :
    ({ Slot.empty 35 with segments := gasWords 1 }).validate .gas 1 = none ∧
    ({ Slot.empty 35 with segments := gasWords 2 }).validate .gas 1 = some (17, .gridPressure) ∧
    ({ Slot.empty 4 with segments := tariffWords }).validate .tariff 1 = none ∧
    ({ Slot.empty 8 with segments := protocolWords 7700 }).validate .protocol 1 = none ∧
    ({ Slot.empty 8 with segments := protocolWords 7701 }).validate .protocol 1 = some (4, .pressureOrder) := by
  decide +kernel

/-- R64: SITE content that passes at strap address 1, and fails at 10, its supervisor's, and at 20, its first point's. -/
theorem witness_site_validation :
    ({ Slot.empty 52 with segments := validSite }).validate .site 1 = none ∧
    ({ Slot.empty 52 with segments := validSite }).validate .site 10 = some (202, .supervisor) ∧
    ({ Slot.empty 52 with segments := validSite }).validate .site 20 = some (0, .duplicatePoint) := by decide +kernel

/-- The station with a SITE in slot B that passes validation; bank 5 is DISABLED and a position's cooling level active. -/
def siteReady : State :=
  ((base.mapTables fun t => { t with site := { t.site with slotB := { t.site.slotB with segments := validSite } } }).mapBank
    5 fun b => { b with state := .disabled }).mapSeq 0 fun q => { q with active := ⟨true, false, false, true⟩ }

theorem witness_site_activation : siteReady.Accepts sup ∧ kindOfWord 3 = some .site ∧ slotOfWord 1 = some .b ∧
    siteReady.events.flags.length = 46 ∧ siteReady.quiet = true ∧ siteReady.tables.site.slotB.role = .standby ∧
    siteReady.tables.site.slotB.status = .full ∧ siteReady.ring.strap = 1 ∧ siteReady.points.trip = .clear ∧
    siteReady.points.linePulled = false ∧ siteReady.cool.table = [] ∧ siteReady.cool.queue = [] ∧
    (siteReady.protocol.map fun g => g.bandEdges.all fun x => x ≤ 1000) = some true :=
  ⟨accepts_of (by decide), by decide +kernel⟩

/-- R60, R115, R138: the blocks take the new SITE. -/
theorem test_activate_site : (next (.tableActivate sup 3 1) siteReady).map (fun t =>
      ((t.live 3).map LiveRecord.freshness, (t.bank 5).state, (t.seq 0).active, t.cool.capacity)) =
    some (some .never, .disabled, ⟨false, true, false, false⟩, 0) := by decide +kernel

theorem witness_contract_write : base.Accepts sup ∧ closed.Accepts sup ∧ (closed.contract 9).isSome = true ∧
    base.contract 1 = none ∧ base.sales.contracts.length < 64 ∧ (1 : Word).toNat ≤ 1 ∧ (3 : Word).toNat ≤ 3 ∧
    let full := base.mapSales fun u => { u with contracts := (List.range 64).map fun i => contractOf (i + 1) 0 }
    accepts full sup = true ∧ full.contract 65 = none ∧ 64 ≤ full.sales.contracts.length :=
  ⟨base_accepts, accepts_of (by decide), by decide +kernel⟩

theorem witness_contract_delete : closed.Accepts sup ∧ (9 : Word) ≠ 0 ∧ closed.contract 9 = some (contractOf 9 0) ∧
    closed.contract 8 = none ∧
    let held := base.mapSales fun u => { u with contracts := [contractOf 9 1] }
    accepts held sup = true ∧ held.contract 9 = some (contractOf 9 1) := ⟨accepts_of (by decide), by decide +kernel⟩

theorem witness_log_release : ∀ t ∈ [RecordState.reserved, .opened, .closed],
    accepts (withSale t base) sup = true ∧ (withSale t base).logAt 0 = some (sale t) ∧ (sale t).number = 1 := by
  decide +kernel

/-! ## Hypotheses met: points, reactions, events -/

theorem witness_point_manual : base.Accepts sup ∧ (base.entry 0).map (fun e => e.fn.isSensor) = some true ∧
    (base.entry 1).map (fun e => e.fn.isSensor) = some false ∧ (base.act 1).map ActRecord.owner = some .auto ∧
    accepts (base.setRecord 1 (driveRecord .manual)) sup = true ∧
    ((base.setRecord 1 (driveRecord .manual)).act 1).map ActRecord.owner = some .manual :=
  ⟨base_accepts, by decide +kernel⟩

theorem witness_reaction_stands : base.Accepts sup ∧ (base.seq 0).state.stateClass = some .idle ∧
    (base.seq 0).state ≠ .outOfService ∧ classOfWord 0 = some .idle ∧ Condition.leak.isLevel = false ∧
    Condition.overpressure.isLevel = true ∧ accepts (inState .ramp) sup = true ∧
    ((inState .ramp).seq 0).state.stateClass = some .flowing := ⟨base_accepts, by decide +kernel⟩

theorem witness_reaction_write : base.Accepts sup ∧ base.reactions.length = 52 ∧
    conditionOfCode (1 : Word).toNat = some .overpressure ∧ conditionOfCode (13 : Word).toNat = some .ventTimeout ∧
    classOfWord 3 = some .postflow ∧ reactionOfWord 4 = some .trip ∧ reactionOfWord 0 = some .note ∧
    conditionOfCode (14 : Word).toNat = none ∧ classOfWord 4 = none ∧ reactionOfWord 5 = none :=
  ⟨base_accepts, by decide +kernel⟩

theorem witness_event_requests : State.reset.Accepts sup ∧ State.reset.events.flags.length = 46 ∧
    flagKeys[9]? = some (.retentionLost, .station) ∧ (State.reset.flag .retentionLost .station).isSome = true ∧
    (∀ j, j < 9 → (flagKeys[j]?).all (fun x => (State.reset.flag x.1 x.2).isNone) = true) ∧
    (16383 : Word).toNat ≤ 16383 ∧ 16383 < (16384 : Word).toNat ∧
    (let clear := base.mapEvents fun e => { e with flags := List.replicate 46 none }
     accepts clear sup = true ∧ ∀ x ∈ flagKeys, clear.flag x.1 x.2 = none) := ⟨accepts_of (by decide), by decide +kernel⟩

/-! ## Hypotheses met: positions, compressors, banks -/

/-- The eleven position states. -/
def posStates : List PosState :=
  [.idle, .authorized, .admitting, .pulse, .ramp, .switch, .hold, .vent, .done, .halted, .outOfService]

/-- The nine compressor states. -/
def compStates : List CompState :=
  [.stopped, .coolWait, .starting, .running, .switching, .unloaded, .lockout, .faulted, .disabled]

theorem witness_position_requests : ∀ t ∈ posStates, accepts (inState t) sup = true ∧ (inState t).site.isSome = true ∧
    ((inState t).seq 0).state = t ∧ (0 : Word).toNat = (0 : Pos).val := by decide +kernel

theorem witness_position_five : base.Accepts sup ∧ base.site.isSome = true ∧ (5 : Word).toNat = (5 : Pos).val ∧
    (base.seq 5).state = .idle := ⟨base_accepts, by decide⟩

theorem witness_position_reset : ∀ t ∈ [RecordState.reserved, .opened],
    accepts (withSale t (inState .hold)) sup = true ∧ (withSale t (inState .hold)).site.isSome = true ∧
    (withSale t (inState .hold)).recordSlot 0 = some 0 ∧ (withSale t (inState .hold)).logAt 0 = some (sale t) ∧
    (withSale t (inState .hold)).nozzleIs 0 0 = true := by decide +kernel

theorem witness_position_reset_vent :
    let r := { sale .opened with vent := some ⟨49, .good, false⟩ }
    let s := (inState .vent).mapSales fun u => { u with log := some r :: List.replicate 127 none }
    accepts s sup = true ∧ s.site.isSome = true ∧ s.recordSlot 0 = some 0 ∧ s.logAt 0 = some r := by decide +kernel

theorem witness_compressor_requests : ∀ t ∈ compStates, accepts (compIn t) sup = true ∧
    (compIn t).site.isSome = true ∧ ((compIn t).comp 0).state = t ∧ (1 : Word).toNat = (1 : Comp).val := by decide +kernel

theorem witness_bank_requests : ∀ t ∈ [BankState.available, .unknown, .disabled],
    let s := base.mapBank 5 fun b => { b with state := t }
    accepts s sup = true ∧ s.site.isSome = true ∧ (5 : Word).toNat = (5 : Bank).val ∧ (s.bank 5).state = t := by
  decide +kernel

/-! ## Hypotheses met: the trip and RESTART -/

theorem witness_trip_requests : ∀ t ∈ [TripState.clear, .latched, .settling], accepts (tripState t) sup = true ∧
    (tripState t).points.trip = t ∧ (tripState t).points.linePulled = false ∧ (tripState t).events.flags.length = 46 := by
  decide +kernel

theorem witness_trip_line : (tripState .clear).quiescent ∧ (tripState .settling).quiescent ∧
    (base.mapPoints fun u => { u with linePulled := true }).points.linePulled = true := ⟨rfl, rfl, rfl⟩

/-- A part without a SITE table in its settle, with the TRIP_RESET still to answer. -/
def resetSettling : State :=
  { State.reset with
    points := { State.reset.points with trip := .settling, settle := some 20 }
    ring := { State.reset.ring with deferred := some ⟨10, 4⟩ } }

theorem witness_restart_settling : resetSettling.Accepts sup ∧ resetSettling.site = none ∧
    resetSettling.points.trip = .settling ∧ resetSettling.ring.deferred = some ⟨10, 4⟩ ∧
    resetSettling.ring.sending.isSome = true := ⟨accepts_of (by decide), by decide +kernel⟩

theorem witness_trip_settle : (tripState .settling).points.settle = some 20 ∧ (tripState .settling).activeDetectors = [] ∧
    ((tripState .settling).setRecord 3 (freshRecord 1)).activeDetectors = [3] ∧
    ((tripState .settling).setRecord 3 (freshRecord 1)).points.settle = some 20 := by decide +kernel

theorem witness_trip_settle_answer : (tripState .settling).addressed = true ∧
    ((tripState .settling).mapRing fun r => { r with deferred := some ⟨10, 4⟩ }).ring.deferred = some ⟨10, 4⟩ := by
  decide +kernel

theorem witness_restart : base.Accepts sup ∧ base.site.isSome = true ∧ State.reset.Accepts sup ∧
    State.reset.site = none ∧ State.reset.points.trip ≠ .settling ∧ State.reset.ring.Served ∧
    State.reset.ring.sending ≠ none :=
  ⟨base_accepts, by decide, accepts_of (by decide), by decide, by decide, by unfold Ring.Served; decide, by decide⟩

/-! ## Hypotheses met: frames of other nodes -/

theorem witness_sample : (∃ b, base.Receives (sampleFrame (from_ 21) [⟨0, .ok, 300⟩]) b) ∧
    base.pointAt 21 0 = some 4 ∧ (base.entry 4).isSome = true ∧ (base.live 4).isSome = true ∧
    (base.entry 4).map (fun e => e.validReading ⟨0, .ok, 10000⟩) = some true ∧
    (base.entry 4).map (fun e => e.validReading ⟨0, .fault, 0⟩) = some false ∧ base.pointAt 21 1 = none :=
  ⟨⟨_, .copied (copies_of (by decide))⟩, by decide +kernel⟩

theorem witness_sample_consumed : base.Receives (sampleFrame ⟨1, 21, 0⟩ [⟨0, .ok, 300⟩]) base :=
  .consumed (consumes_of (by decide))

/-- A watched sensor point: outlet pressures of position 0, the pressure of bank 0, the discharge temperature of
compressor 0, and the nozzle and the detector of the station. -/
def watchedSite : List (Option (List Word)) :=
  let watched := fun (node fn scope limit : Word) => [node, 0, fn, scope, 1000, 0, 1, limit, 100, 0, 0, 0, 0, 0, 0]
  [some (sensorEntry 20 4 256 ++ driveEntry 30 13 256 1 65535 ++ watched 22 2 256 400 ++ sensorEntry 32 11 0),
    some (watched 21 1 256 400 ++ watched 36 5 768 300 ++ watched 37 6 512 900)] ++ siteWords.drop 2

/-- A fresh record whose watch stands in a state. -/
def watchedRecord (v : Int) (w : WatchState) : PointRecord := .sensor ⟨v, .good, false, .fresh, some 900, some w⟩

/-- The station with watched points, their watches in a state. -/
def watching (w : WatchState) : State :=
  { base with
    tables := { base.tables with site := activeKind 52 watchedSite }
    points :=
      { base.points with
        records :=
          [freshRecord 0, driveRecord .auto, watchedRecord 310 w, freshRecord 0, watchedRecord 300 w, watchedRecord 350 w,
            watchedRecord 300 w] ++ List.replicate 185 .empty } }

/-- O36: the hypotheses of every consequence, with a reading at the limit of the watch. -/
theorem witness_sample_consequences : ∀ w ∈ [WatchState.armed, .disarmed],
    copies (watching w) (from_ 21) = true ∧ (watching w).pointAt 21 0 = some 4 ∧
    ((watching w).live 4).bind LiveRecord.watch = some w ∧ (watching w).pointAt 36 0 = some 5 ∧
    (watching w).pointAt 37 0 = some 6 ∧ ((watching w).comp 0).state = .stopped ∧
    (watching w).events.flags.length = 46 := by decide +kernel

theorem witness_sample_watches : ∀ e ∈ [((4 : Nat), Fn.outletPA, EventScope.position 0, (400 : Int)),
      (5, .bankP, .bank 0, 300), (6, .dischargeT, .compressor 0, 900)],
    ((watching .armed).entry e.1).map (fun x => (x.fn, x.scope)) = some (e.2.1, e.2.2.1) ∧
    ((watching .armed).entry e.1).map PointEntry.watch = some (some (e.2.2.2, 100)) := by decide +kernel

/-- O36: the hypotheses about the trip, the sequence and the limit readings, in the same states. -/
theorem witness_sample_limits : ∀ w ∈ [WatchState.armed, .disarmed],
    ((watching w).entry 3).map (fun e => (e.fn, e.scope)) = some (.detector, .station) ∧
    (watching w).points.trip = .clear ∧ ((watching w).seq 0).state = .idle ∧ ((watching w).headerFor 0).isSome = true ∧
    ((watching w).entry 4).map (fun e => e.validReading ⟨0, .ok, 400⟩) = some true ∧
    ((watching w).entry 5).map (fun e => e.validReading ⟨0, .ok, 300⟩) = some true := by decide +kernel

/-- R14, R15, R11: a pressure at the limit of an ARMED watch disarms it, raises, and disagrees with its pair. -/
theorem test_watch_raises : (next (.sample (from_ 21) [⟨0, .ok, 400⟩]) (watching .armed)).map (fun t =>
      ((t.live 4).bind LiveRecord.watch, (t.flag .condition (.position 0)).isSome, (t.combined 0).num,
        (t.seq 0).active.sensorDisagree)) =
    some (some .disarmed, true, 400, true) := by decide +kernel

/-- R14, R15: a FAULT reading leaves the ARMED watch of a never-sampled point alone; the next one disarms it and raises. -/
theorem test_watch_at_a_second_fault :
    let after := fun (f : Freshness) =>
      (next (.sample (from_ 21) [⟨0, .fault, 0⟩])
        (((watching .armed).setRecord 4 (.sensor ⟨10000, .invalid, false, f, none, some .armed⟩)).mapSeq 0 fun q =>
          { q with active := { q.active with sensorStale := true } })).map fun t =>
            ((t.live 4).bind LiveRecord.watch, (t.flag .condition (.position 0)).isSome)
    after .never = some (some .armed, false) ∧ after .stale = some (some .disarmed, true) := by decide +kernel

/-- R95: a position in DONE with its nozzle holstered by the frame. -/
theorem witness_sample_nozzle : copies (inState .done) (from_ 20) = true ∧ (inState .done).pointAt 20 0 = some 0 ∧
    ((inState .done).entry 0).map (fun e => (e.fn, e.scope)) = some (.nozzle, .position 0) ∧
    ((inState .done).seq 0).state = .done ∧
    (next (.sample (from_ 20) [⟨0, .ok, 0⟩]) (inState .done)).map (fun t => (t.nozzleIs 0 0, (t.seq 0).state)) =
      some (true, .idle) := by decide +kernel

/-- Position 0 in a state with its nozzle COUPLED or not, and an OPEN record. -/
def nozzleAt (v : Int) (t : PosState) : State :=
  (withSale .opened (fill fun q => { q with state := t, endReason := some .full })).setRecord 0 (freshRecord v)

/-- R76, R81, R96: a nozzle that reaches COUPLED in AUTHORIZED, or leaves it in ADMIT and from PULSE to VENT. -/
theorem witness_nozzle : (∀ t ∈ [PosState.authorized, .admitting, .pulse, .vent], ∀ v ∈ [(0 : Int), 1, 2],
      reading (nozzleAt v t) 20 0 = some (.nozzle, .position 0) ∧
      (nozzleAt v t).findPoint .nozzle (.position 0) = some 0 ∧ (nozzleAt v t).events.flags.length = 46 ∧
      ((nozzleAt v t).seq 0).state = t) ∧
    (next (.sample (from_ 20) [⟨0, .ok, 1⟩]) (nozzleAt 2 .admitting)).map (fun t => ((t.seq 0).state, (t.seq 0).couple)) =
      some (.authorized, some 40000) ∧
    (next (.sample (from_ 20) [⟨0, .ok, 1⟩]) (nozzleAt 2 .vent)).map (fun t =>
      (t.flag .condition (.position 0)).map Flag.detail) =
      some (some (.raise .uncoupled .none (base.reactionOf .uncoupled .postflow))) := by decide +kernel

/-- Position 0 in RAMP from base 300 in band 0 at T40, two seconds after its mark. -/
def ramping : State :=
  (withSale .opened (fill fun q =>
    { q with state := .ramp, band := some 0, category := some .t40, rampBase := some ⟨300, .good, false⟩ })).mapTime
      fun u => { u with count := 2000 }

/-- R9, R86, R91: an outlet pressure at the end target that first raises SENSOR_DISAGREE, with its reaction HOLD, holds the
fill. -/
theorem witness_ramp_hold :
    let s := { ramping with tables := (watching .disarmed).tables, points := (watching .disarmed).points }
    (reading s 21 4 = some (.outletPA, .position 0) ∧ s.endTarget 0 = 7000 ∧ s.reactionOf .sensorDisagree .flowing = .hold ∧
      (s.seq 0).active.sensorDisagree = false) ∧
    (next (.sample (from_ 21) [⟨0, .ok, 7000⟩]) s).map (fun t =>
      ((t.combined 0).num, (t.seq 0).state, (t.seq 0).causes.condition, (t.seq 0).holdSet.sensorDisagree)) =
      some (7000, .hold, true, true) := by decide +kernel

/-- R86, R47: at 6999, below the end target 7000, the ramp goes on with the target 300 + 300 kPa/s × 2 s; at 7000 it
ENDs. -/
theorem witness_ramp : reading ramping 21 4 = some (.outletPA, .position 0) ∧ (ramping.seq 0).state = .ramp ∧
    ramping.endTarget 0 = 7000 ∧ (ramping.seq 0).rampBase = some ⟨300, .good, false⟩ ∧
    (next (.sample (from_ 21) [⟨0, .ok, 6999⟩]) ramping).map (fun t =>
      ((t.seq 0).state, (t.seq 0).target.map fun x => x.target.num)) = some (.ramp, some 360) ∧
    (next (.sample (from_ 21) [⟨0, .ok, 7000⟩]) ramping).map (fun t => ((t.seq 0).state, (t.seq 0).endReason)) =
      some (.vent, some .full) := by decide +kernel

/-- R94: VENT goes on at 30, the vent done pressure, and ends below it. -/
theorem witness_vent_reading : reading (nozzleAt 2 .vent) 21 4 = some (.outletPA, .position 0) ∧
    (nozzleAt 2 .vent).recordSlot 0 = some 0 ∧ (nozzleAt 2 .vent).logAt 0 = some (sale .opened) ∧
    (next (.sample (from_ 21) [⟨0, .ok, 30⟩]) (nozzleAt 2 .vent)).map (fun t => (t.seq 0).state) = some .vent ∧
    (next (.sample (from_ 21) [⟨0, .ok, 29⟩]) (nozzleAt 2 .vent)).map (fun t => ((t.seq 0).state, t.sales.closure)) =
      some (.done, [0]) := by decide +kernel

/-- Point 4, of position 0, an actuator of function `fn`, and point 5 its feedback, with the match state `m`. -/
def fedBack (fn prop : Word) (m : MatchState) (t : PosState) : State :=
  withPoints [sensorEntry 20 4 256, driveEntry 30 13 256 1 65535, driveEntry 31 16 512 0 65535, sensorEntry 32 11 0,
      driveEntry 35 fn 256 prop 5, sensorEntry 33 12 256]
    [freshRecord 0, driveRecord .auto, driveRecord .auto, freshRecord 0,
      .actuator ⟨0, 0, true, .auto, 0, 700, m, some 100⟩, freshRecord 9]
    (fill fun q => { q with state := t, resume := some .ramp })

theorem witness_feedback : ∀ m ∈ [MatchState.matched, .settling, .discrepant],
    reading (fedBack 15 0 m .switch) 33 5 = some (.valveFb, .position 0) ∧
    ((fedBack 15 0 m .switch).entry 4).map (fun d => (d.fn, d.scope, d.feedback)) =
      some (.bankValve, .position 0, some 5) ∧
    ((fedBack 15 0 m .switch).act 4).map ActRecord.matching = some m ∧ ((fedBack 15 0 m .switch).seq 0).state = .switch ∧
    (∀ k ∈ List.range 192, ((fedBack 15 0 m .switch).entry k).any (fun f => f.feedback == some 5) = decide (k = 4)) := by
  decide +kernel

/-- R29, R30, R90: the last bank valve MATCHED ends SWITCH; a proportional point is MATCHED at a difference of 50 and
SETTLING at 51. -/
theorem test_feedback :
    (next (.sample (from_ 33) [⟨0, .ok, 0⟩]) (fedBack 15 0 .settling .switch)).map (fun t =>
      ((t.act 4).map ActRecord.matching, (t.seq 0).state)) = some (some .matched, .ramp) ∧
    (next (.sample (from_ 33) [⟨0, .ok, 50⟩]) (fedBack 13 1 .settling .idle)).map (fun t =>
      (t.act 4).map ActRecord.matching) = some (some .matched) ∧
    (next (.sample (from_ 33) [⟨0, .ok, 51⟩]) (fedBack 13 1 .matched .idle)).map (fun t =>
      (t.act 4).map fun r => (r.matching, r.discrepancy)) = some (some (.settling, some 100)) := by decide +kernel

/-- The intake of position 0 with a baseline and a running deadline. -/
def metered : State :=
  base.mapSales fun u => { u with intake := u.intake.set 0 ⟨some 100, .fresh, some 60, true, .gasClosed⟩ }

theorem witness_total : (∃ b, metered.Receives (totalFrame (from_ 50) 300 .ok) b) ∧
    (metered.posSite 0).map PosSite.meter = some 50 ∧ (metered.posSite 5).map PosSite.meter = some 0 ∧
    (metered.sales.intake.get 0).baseline = some 100 ∧ (metered.headerFor 0).map ClassHeader.meterDelta = some 200 ∧
    ((300 : Word) - 100).toNat = 200 := ⟨⟨_, .copied (copies_of (by decide))⟩, by decide +kernel⟩

/-- Position 0 in RAMP with an OPEN record, a preset threshold of 200 g, and a meter whose interval mark is given. -/
def counting (i : Interval) : State :=
  (withSale .opened (fill fun q => { q with state := .ramp, threshold := some 200 })).mapSales fun u =>
    { u with intake := u.intake.set 0 ⟨some 100, .fresh, some 60, true, i⟩ }

/-- R169, R170, R88: in an open interval 199 g are counted, 200 g, the limit of a delta and the preset, END the fill, and 201 g
are counted no more; in a closed one 5 g, the creep limit, raise nothing, and 6 g raise METER_WHILE_CLOSED. -/
theorem witness_total_counts : (∀ i ∈ [Interval.gasOpen, .gasClosed], copies (counting i) (from_ 50) = true ∧
      (counting i).posSite 0 = some ⟨.h70, 180, 40, 11, 50, 6000⟩ ∧
      (∀ q : Pos, q ≠ 0 → ((counting i).posSite q).map PosSite.meter = some 0) ∧ (counting i).recordSlot 0 = some 0 ∧
      (counting i).logAt 0 = some (sale .opened) ∧ ((counting i).seq 0).state.metered = true ∧
      (counting i).headerFor 0 = base.headerFor 0 ∧ (counting i).events.flags.length = 46) ∧
    (let told := fun i (w : Word) =>
      (next (.total (from_ 50) w .ok) (counting i)).map fun t =>
        ((t.logAt 0).map SaleRecord.gross, (t.seq 0).state, (t.flag .condition (.position 0)).isSome)
    told .gasOpen 299 = some (some 199, .ramp, false) ∧ told .gasOpen 300 = some (some 200, .vent, false) ∧
    (told .gasOpen 301).map Prod.fst = some (some 0) ∧ told .gasClosed 105 = some (some 0, .ramp, false) ∧
    (told .gasClosed 106).map (fun x => (x.1, x.2.2)) = some (some 0, true)) := by decide +kernel

/-- R169: a FAULT and a delta above the limit mark the OPEN record METER_SUSPECT. -/
theorem test_total_suspect : ∀ x ∈ [((100 : Word), Status.fault), (301, .ok)],
    ((next (.total (from_ 50) x.1 x.2) (counting .gasOpen)).bind fun t => t.logAt 0).map (fun r => r.marks.meterSuspect) =
      some true := by decide +kernel

/-- Two positions that share the meter of node 50, with baselines. -/
def shared : State :=
  { metered with
    tables := { metered.tables with
      site := activeKind 52 (siteWords.dropLast ++ [some [0, 180, 40, 11, 50, 6000, 0, 180, 41, 11, 50, 6000]]) }
    sales := { metered.sales with intake := metered.sales.intake.set 1 ⟨some 100, .fresh, some 60, true, .gasClosed⟩ } }

/-- The station with no ACTIVE PROTOCOL slot. -/
def headless : State :=
  metered.mapTables fun t => { t with protocol := { t.protocol with slotA := t.protocol.slotB } }

theorem witness_total_shared : copies shared (from_ 50) = true ∧
    (∀ p ∈ [(0 : Pos), 1], (shared.posSite p).map PosSite.meter = some 50 ∧
      (shared.sales.intake.get p).baseline = some 100 ∧ (shared.headerFor p).map ClassHeader.meterDelta = some 200 ∧
      shared.saleOf p = none) ∧
    copies headless (from_ 50) = true ∧ headless.headerFor 0 = none ∧ (headless.sales.intake.get 0).baseline = some 100 ∧
    (headless.posSite 0).map PosSite.meter = some 50 := by decide +kernel

theorem witness_silence : base.quiescent ∧ (base.entry 0).isSome = true ∧ base.live 0 = some
    ⟨0, .good, false, .fresh, some 900, none⟩ ∧ metered.quiescent ∧ (metered.sales.intake.get 0).deadline = some 60 ∧
    (metered.sales.intake.get 0).healthy = true ∧ metered.events.flags.length = 46 := by
  unfold State.quiescent
  decide +kernel

/-- A link state with its timer running. -/
def linkOf (m : LinkMode) : LinkState :=
  ⟨m, none, some ⟨300, .good, false⟩, some ⟨150, .good, false⟩, some 300, some 150, some ⟨20, .good, false⟩, .run, some 80⟩

/-- Position 0 in a state with a link and an OPEN record. -/
def linked (t : PosState) (m : LinkMode) : State :=
  withSale .opened (fill fun q => { q with state := t, link := some (linkOf m), lastP := some ⟨300, .good, false⟩ })

theorem witness_link : (∃ b, (linked .admitting .pending).Receives (linkFrame (from_ 40) 300 150 .ok 0) b) ∧
    (∃ b, base.Receives (linkFrame (from_ 40) 300 150 .fault 2) b) ∧ (∀ q, base.takesLink q 40 = false) :=
  ⟨⟨_, .copied (copies_of (by decide))⟩, ⟨_, .copied (copies_of (by decide))⟩, by decide +kernel⟩

/-- The tank temperature maximum, 850, is reached and not passed; a FAULT's substitute, 1000, is above it. -/
theorem witness_link_taken : ∀ t ∈ [PosState.admitting, .pulse, .ramp, .switch, .hold, .vent],
    ∀ m ∈ [LinkMode.pending, .communicated, .nonCommunicated],
    copies (linked t m) (from_ 40) = true ∧ (linked t m).takesLink 0 40 = true ∧
    (∀ q, q ≠ (0 : Pos) → (linked t m).takesLink q 40 = false) ∧ ((linked t m).seq 0).link = some (linkOf m) ∧
    ((linked t m).boundGas 0).isSome = true ∧ ((linked t m).seq 0).state = t ∧
    ((linked t m).seq 0).causes.vehicle = false ∧ (linked t m).events.flags.length = 46 ∧
    ((linked t m).header 0).tankTempMax = 850 ∧ clampInt (-600) 1000 (850 : Word).toInt = 850 ∧
    clampInt (-600) 1000 (851 : Word).toInt = 851 ∧ ((linked t m).header 0).tankTempMax < 1000 := by decide +kernel

/-- Position 0 held by the vehicle, alone or with a bank. -/
def heldByVehicle (t : PosState) (bank : Bool) (r : Resume) : State :=
  (linked t .nonCommunicated).mapSeq 0 fun q => { q with causes := ⟨true, bank, false, false⟩, resume := some r }

theorem witness_link_run : (∀ b ∈ [true, false], ∀ r ∈ [Resume.pulse, .ramp], ∀ t ∈ [PosState.switch, .hold],
      copies (heldByVehicle t b r) (from_ 40) = true ∧ (heldByVehicle t b r).takesLink 0 40 = true ∧
      ((heldByVehicle t b r).seq 0).causes = ⟨true, b, false, false⟩ ∧ ((heldByVehicle t b r).seq 0).state = t ∧
      (heldByVehicle t b r).bankValvesMatched 0 = true) ∧
    (let site := siteWords.set 1 (some ([30, 1, 15, 256, 0, 0, 0, 0, 0, 0, 0, 0, 500, 65535, 0]))
     let s := ((heldByVehicle .hold false .ramp).mapTables fun t => { t with site := activeKind 52 site }).setRecord 4
       (driveRecord .auto)
     copies s (from_ 40) = true ∧ s.takesLink 0 40 = true ∧ s.bankValvesMatched 0 = false ∧
       (s.boundGas 0).isSome = true) := by decide +kernel

/-- A communicated ramp at outlet pressure 300: the tolerance, 500, is reached and passed, and the SOC end, 1000, is
reached. -/
theorem witness_link_tests :
    let s := linked .ramp .communicated
    let g := s.tables.gas.slot .a
    ((s.seq 0).lastP = some ⟨300, .good, false⟩ ∧ (s.header 0).linkTol = 500 ∧ (800 - 300 : Int).natAbs ≤ 500 ∧
      ¬(801 - 300 : Int).natAbs ≤ 500) ∧ s.boundGas 0 = some g ∧ (s.header 0).socEnd = 1000 ∧
    (let full := s.mapTables fun t => { t with gas := ⟨{ t.gas.slotA with
       segments := (List.replicate 34 (some (List.replicate 20 (10 : Word)))) ++ [some (List.replicate 17 (10 : Word))],
       refs := some (10, 10) }, t.gas.slotB, 1⟩ }
     copies full (from_ 40) = true ∧ full.takesLink 0 40 = true ∧ full.boundGas 0 = some (full.tables.gas.slot .a) ∧
     stateOfCharge ((full.tables.gas.slot .a).density ⟨300, .good, false⟩ ⟨150, .good, false⟩)
       ((full.tables.gas.slot .a).heldReference (full.cls 0)) = ⟨1000, .good, false⟩) := by decide +kernel

/-- TANK_HOT by the reaction of the state's class. -/
theorem witness_link_hot : (linked .ramp .pending).selectReaction 0 .tankHot = .finish ∧
    (linked .vent .pending).selectReaction 0 .tankHot = .note ∧
    (let s := (linked .ramp .pending).setReactions ((linked .ramp .pending).reactions.set (cellIndex .tankHot .flowing) .trip)
     s.selectReaction 0 .tankHot = .trip ∧ s.takesLink 0 40 = true ∧ copies s (from_ 40) = true) ∧
    (let s := (linked .ramp .pending).setReactions ((linked .ramp .pending).reactions.set (cellIndex .tankHot .flowing) .halt)
     s.selectReaction 0 .tankHot = .halt ∧ s.takesLink 0 40 = true ∧ copies s (from_ 40) = true) := by decide +kernel

theorem witness_link_timer : ∀ t ∈ [PosState.admitting, .ramp, .hold], ∀ m ∈ [LinkMode.pending, .communicated],
    (linked t m).handOvers = [] ∧ ((linked t m).seq 0).link = some (linkOf m) ∧ (linkOf m).timer = some 80 ∧
    (linked t m).events.flags.length = 46 ∧ ((linked t m).seq 0).lastP = some ⟨300, .good, false⟩ ∧
    (((linked t m).combination 0).endPress : Int) ≤ 300 := by decide +kernel

theorem witness_command_filter : base.Copies ⟨30, 9, 0⟩ ∧ base.actuatorAt 30 0 = some 1 ∧ base.actuatorAt 30 1 = none ∧
    (base.entry 1).isSome = true ∧ (base.act 1).map ActRecord.owner = some .auto ∧
    ((base.setRecord 1 (driveRecord .safe)).act 1).map ActRecord.owner = some .safe ∧
    copies (base.setRecord 1 (driveRecord .manual)) ⟨30, 9, 0⟩ = true ∧
    ((base.setRecord 1 (driveRecord .manual)).act 1).map ActRecord.owner = some .manual :=
  ⟨copies_of (by decide), by decide +kernel⟩

/-! ## Hypotheses met: sales and the clock -/

theorem witness_authorize : base.Takes term ∧ ∃ x, base.terms term ⟨0, 7, 0, 0, 0, 0⟩ = .ok x ∧
    base.nozzleIs x.position 2 = false :=
  ⟨takes_of (by decide), _, rfl, by decide +kernel⟩

/-- R173: for FLEET the preset clamped to the class maximum, 12,000 g, is reduced to the 50 g the contract has left. -/
theorem witness_authorize_fleet :
    let s := base.mapSales fun u => { u with contracts := [{ contractOf 1 0 with remaining := 60, reserved := 10 }] }
    takes s term = true ∧ (s.terms term ⟨0, 7, 1, 1, 1, 12001⟩).toOption.map
      (fun x => (x.contract, x.effective, x.clamped)) = some (some 1, 50, true) := by decide +kernel

/-- A state whose SITE table routes bank 0 to position 0, the bank AVAILABLE at a pressure. -/
def banked (pressure : Int) (s : State) : State :=
  (s.mapTables fun t => { t with site := activeKind 52 ((siteWords.set 0 (some (sensorEntry 20 4 256 ++
      driveEntry 30 13 256 1 65535 ++ driveEntry 31 15 256 0 65535 ++ sensorEntry 32 11 0))).set 48
        (some ([0, 4500, 3500, 1800, 2, 120] ++ List.replicate 30 0 ++ [1, 0, 0, 0, 0, 0, 0] ++ List.replicate 7 0))) }).mapBank 0
    fun b => { b with state := .available, pressure := ⟨pressure, .good, false⟩ }

/-- The nozzle of position 0 COUPLED, with a bank that stands at the switch differential, 300, or just below it. -/
def coupled (supplied : Bool) : State := banked (if supplied then 300 else 299) (base.setRecord 0 (freshRecord 2))

theorem witness_authorize_coupled : (∀ b ∈ [true, false], takes (coupled b) term = true ∧
    (((coupled b).terms term ⟨0, 7, 0, 0, 0, 0⟩).toOption.map fun x => (coupled b).nozzleIs x.position 2) = some true ∧
    (coupled b).recordSlot 0 = none ∧ (coupled b).cool.allocOf (.position 0) = none) ∧
    (coupled true).Supplied 0 ∧ ¬(coupled false).Supplied 0 := by
  unfold State.Supplied
  decide +kernel

/-- R76, R79, R174: a COUPLED nozzle goes on to ADMIT; with its supply exhausted the record is freed and DONE entered. -/
theorem test_authorize_coupled :
    (next (.authorize term 0 7 0 0 0 0) (coupled true)).map (fun t =>
      ((t.seq 0).state, (t.logAt 0).map SaleRecord.state, (t.draw 0).claim)) =
      some (.admitting, some .reserved, some 0) ∧
    (next (.authorize term 0 7 0 0 0 0) (coupled false)).map (fun t =>
      ((t.seq 0).state, t.logAt 0, t.sales.counter)) = some (.done, none, 1) := by decide +kernel

/-- `Calm` as a test. -/
def calm (s t : State) (p : Pos) : Bool :=
  ((t.stalePoints p).isEmpty || (s.seq p).active.sensorStale) &&
    ((t.points.pairs.get p).state != .disagree || (s.seq p).active.sensorDisagree)

theorem calm_of {s t : State} {p : Pos} (e : calm s t p = true) : s.Calm t p := by
  simp only [calm, Bool.and_eq_true, Bool.or_eq_true, List.isEmpty_iff, bne_iff_ne, ne_eq] at e
  exact ⟨fun h => e.1.resolve_left h, fun h => e.2.resolve_left (not_not_intro h)⟩

/-- Position 0 in a state with a RESERVED record, its nozzle at a value, and a bank that stands at a pressure. -/
def waiting (pressure v : Int) (t : PosState) : State :=
  banked pressure ((withSale .reserved (inState t)).setRecord 0 (freshRecord v))

/-- R76, R79, R81: at the switch differential COUPLED takes AUTHORIZED to ADMIT, just below it to DONE; LIFTED leaves AUTHORIZED,
and takes ADMIT back to it. -/
theorem witness_nozzle_moves :
    (∀ x ∈ [((300 : Int), (1 : Int), PosState.authorized, (2 : Word), PosState.admitting, true),
        (299, 1, .authorized, 2, .done, false), (300, 2, .authorized, 1, .authorized, true),
        (300, 2, .admitting, 1, .authorized, true), (300, 2, .admitting, 2, .admitting, true)],
      let s := waiting x.1 x.2.1 x.2.2.1
      reading s 20 0 = some (.nozzle, .position 0) ∧ s.findPoint .nozzle (.position 0) = some 0 ∧
      (s.seq 0).state = x.2.2.1 ∧ s.recordSlot 0 = some 0 ∧ s.cool.allocOf (.position 0) = none ∧
      (next (.sample (from_ 20) [⟨0, .ok, x.2.2.2.1⟩]) s).any (fun t => calm s t 0 && (t.seq 0).state == x.2.2.2.2.1 &&
        (t.logAt 0).isSome == x.2.2.2.2.2) = true) ∧
    (waiting 300 1 .authorized).Supplied 0 ∧ ¬(waiting 299 1 .authorized).Supplied 0 := by
  unfold State.Supplied
  decide +kernel

/-- The station with one contract that is suspended, or permits no class, or has nothing left. -/
def contracted (c : Contract) : State := base.mapSales fun u => { u with contracts := [c] }

theorem witness_authorize_refused : base.Takes term ∧ State.reset.Takes term ∧ State.reset.site = none ∧
    base.posSite 0 = some ⟨.h70, 180, 40, 11, 50, 6000⟩ ∧
    (∀ t ∈ [PosState.idle, .authorized, .outOfService], takes (inState t) term = true ∧ ((inState t).seq 0).state = t) ∧
    takes (tripState .latched) term = true ∧ (tripState .latched).latched = true ∧ base.latched = false ∧
    base.time.valid = true ∧ base.tables.activeBind = some bindA ∧ none ∈ base.sales.log ∧
    base.sales.counter < 4294967295 ∧ base.contract (512 : Word).toNat = none ∧
    (∀ c ∈ [{ contractOf 512 0 with active := false }, { contractOf 512 0 with permitH70 := false },
        { contractOf 512 0 with remaining := 49 }],
      takes (contracted c) term = true ∧ (contracted c).contract (512 : Word).toNat = some c) ∧
    min (effectivePreset .none 0 0 12000).1 49 < 50 ∧ (effectivePreset .mass 49 0 12000).1 < 50 :=
  ⟨takes_of (by decide), takes_of (by decide), by decide +kernel⟩

theorem witness_authorize_refused_state :
    (let s := base.mapTime fun u => { u with valid := false }
     takes s term = true ∧ s.time.valid = false) ∧
    (let s := base.mapTables fun t => { t with gas := { t.gas with slotA := t.gas.slotB } }
     takes s term = true ∧ s.tables.gas.active = none) ∧
    (let s := base.mapSales fun u => { u with log := List.replicate 128 (some (sale .closed)) }
     takes s term = true ∧ ∀ r ∈ s.sales.log, r ≠ none) ∧
    (let s := base.mapSales fun u => { u with counter := 4294967295 }
     takes s term = true ∧ 4294967295 ≤ s.sales.counter) := by decide +kernel

theorem witness_cancel : ∀ t ∈ [PosState.authorized, .admitting, .ramp],
    takes (withSale .reserved (inState t)) term = true ∧ (withSale .reserved (inState t)).site.isSome = true ∧
    (withSale .reserved (inState t)).posSite 0 = some ⟨.h70, 180, 40, 11, 50, 6000⟩ ∧
    (withSale .reserved (inState t)).saleOf 0 = some (sale .reserved) ∧ (sale .reserved).reference = 7 ∧
    ((withSale .reserved (inState t)).seq 0).state = t := by decide +kernel

/-- R178: the worked case of section 11.7, 3,641 g gross and 22 g vented on an AMOUNT preset of 3,610 g at 13,850 milli/kg. -/
theorem test_billing :
    let r := { sale .opened with
      gross := 3641, vent := some ⟨22, .good, false⟩, preset := .amount, effective := 3610, price := 13850 }
    let s := (withSale .opened base).setLog 0 (some r)
    s.recordSlot 0 = some 0 ∧ s.logAt 0 = some r ∧
    ((s.closeRecord 0 .preset none).logAt 0).map (fun q => (q.net, q.billed, q.overrun, q.amount)) =
      some (3619, 3610, 9, 5000) := by decide +kernel

/-- R178: a FLEET closure bills no more than the reservation and charges the contract for it. -/
theorem witness_fleet_closure :
    let r := { sale .opened with card := .fleet, contract := some 1, reservation := some 500, gross := 800 }
    let s := ((withSale .opened base).setLog 0 (some r)).mapSales fun u => { u with contracts := [contractOf 1 500] }
    s.contract 1 = some (contractOf 1 500) ∧ s.logAt 0 = some r ∧
    (s.closeRecord 0 .full none).contract 1 =
      some { contractOf 1 500 with remaining := 59500, reserved := 0, salesToday := 1 } := by decide +kernel

theorem witness_mass :
    let s := (withSale .opened (fill fun q => { q with state := .ramp, threshold := some 11985 })).mapSales fun u =>
      { u with intake := Six.all ⟨some 0, .fresh, none, true, .gasOpen⟩ }
    (s.sales.intake.get 0).interval = .gasOpen ∧ s.counting 0 = true ∧ s.recordSlot 0 = some 0 ∧
    s.logAt 0 = some (sale .opened) ∧ (s.seq 0).threshold = some 11985 ∧ (sale .opened).gross + 11984 < 11985 := by
  decide +kernel

theorem witness_fleet_sale : { sale .opened with card := .fleet, reservation := some 500 }.card = .fleet ∧
    { sale .opened with card := .fleet, reservation := some 500 }.reservation = some 500 := ⟨rfl, rfl⟩

theorem witness_beacon : base.Copies (from_ 10) ∧ (from_ 10).dst = 255 ∧ base.Consumes sup ∧
    base.notSupervisor (from_ 10) = false ∧ base.notSupervisor (from_ 9) = true ∧ (1439 : Word).toNat < 1440 ∧
    (59999 : Word).toNat < 60000 ∧ base.sales.contractDay < (1 : Word).toNat ∧ (0 : Word).toNat ≤ base.sales.contractDay :=
  ⟨copies_of (by decide), rfl, consumes_of (by decide), by decide +kernel⟩

theorem witness_minute : base.quiescent ∧ base.time.valid = true ∧ base.time.minute < 1439 ∧
    (base.mapTime fun u => { u with minute := 1439 }).time.valid = true := ⟨rfl, rfl, by decide, rfl⟩

/-! ## Hypotheses met: timers -/

theorem witness_actuator_deadlines : base.quiescent ∧ base.events.flags.length = 46 ∧
    (base.entry 1).map PointEntry.scope = some (.position 0) ∧ (base.act 1).bind ActRecord.discrepancy = some 100 ∧
    (base.entry 2).map PointEntry.scope = some (.compressor 0) ∧ (base.act 2).bind ActRecord.discrepancy = some 100 ∧
    (base.comp 0).state = .stopped ∧ base.selectReaction 0 .valveDiscrepancy = .note ∧
    (inState .ramp).selectReaction 0 .valveDiscrepancy = .halt ∧ ((inState .ramp).seq 0).state ≠ .outOfService := by
  unfold State.quiescent
  decide +kernel

theorem witness_waiting : (∀ t ∈ [PosState.authorized, .admitting, .switch, .hold],
    let s := fill fun q => { q with state := t, couple := some 40, holdLimit := some 60 }
    s.handOvers = [] ∧ (s.seq 0).state = t ∧ (s.seq 0).couple = some 40 ∧ (s.seq 0).holdLimit = some 60 ∧
    s.events.flags.length = 46 ∧ (s.combined 0).valid = true ∧ ((s.header 0).ventDone : Int) ≤ (s.combined 0).num) ∧
    (let s := (inState .hold).mapPoints fun u => { u with pairs := Six.all ⟨.single, ⟨29, .good, false⟩⟩ }
     (s.combined 0).valid = true ∧ (s.combined 0).num < (s.header 0).ventDone) := by decide +kernel

/-- Position 0 in the settle phase of PULSE with a kept pressure and a present one. -/
def settling (kept present : Int) (q : Quality) : State :=
  (withSale .opened (fill fun x => { x with
    state := .pulse, pulse := some 50, phase := .settling, settleP := some ⟨kept, .good, false⟩, band := some 0,
    category := some .t40, link := some (linkOf .pending) })).mapPoints fun u =>
      { u with pairs := Six.all ⟨.single, ⟨present, q, false⟩⟩ }

theorem witness_pulse_open : let s := fill fun q => { q with state := .pulse, pulse := some 50 }
    s.handOvers = [] ∧ (s.seq 0).pulse = some 50 ∧ (s.seq 0).phase = .opening ∧
    s.findPoint .fillValve (.position 0) = some 1 ∧ (s.act 1).isSome = true := by decide +kernel

theorem witness_pulse_settle :
    (∀ s ∈ [settling 300 0 .invalid, settling 300 249 .good, settling 300 300 .good, settling 49 49 .good,
        settling 7000 7000 .good], s.handOvers = [] ∧ (s.seq 0).state = .pulse ∧ (s.seq 0).pulse = some 50 ∧
      (s.seq 0).phase = .settling ∧ s.events.flags.length = 46) ∧
    ((settling 300 0 .invalid).combined 0).valid = false ∧
    ((((settling 300 249 .good).header 0).leakLimit : Int) < 300 - 249) ∧
    (49 : Int) < ((settling 49 49 .good).header 0).minInitial ∧ ((settling 7000 7000 .good).endTarget 0 : Int) ≤ 7000 ∧
    (300 : Int) < (settling 300 300 .good).endTarget 0 ∧ (settling 300 300 .good).stillSuits 0 300 = true ∧
    (settling 300 300 .good).reactionOf .leak .flowing = .halt := by decide +kernel

theorem witness_vent_timer :
    let s := withSale .opened (fill fun q => { q with state := .vent, ventTimer := some 50, endReason := some .full })
    s.handOvers = [] ∧ (s.seq 0).state = .vent ∧ (s.seq 0).ventTimer = some 50 ∧ s.events.flags.length = 46 ∧
    s.reactionOf .ventTimeout .postflow = .note ∧ s.recordSlot 0 = some 0 ∧ s.logAt 0 = some (sale .opened) ∧
    (s.setReactions (s.reactions.set 51 .halt)).reactionOf .ventTimeout .postflow = .halt := by decide +kernel

theorem witness_compressor_timers : (∀ t ∈ [CompState.starting, .unloaded, .lockout], (compIn t).handOvers = [] ∧
    ((compIn t).comp 0).state = t ∧ ((compIn t).comp 0).timer = some 40 ∧ (compIn t).events.flags.length = 46) ∧
    (compIn .lockout).startBlocked 0 = true := by decide +kernel

/-- Compressor 1 in LOCKOUT with a ready discharge temperature and a bank queued, compressor 0 FAULTED. -/
def startable : State :=
  let t := (siteWords.set 1 (some (sensorEntry 21 6 513)))
  ((((base.mapTables fun u => { u with site := activeKind 52 t }).mapComp 1 fun r =>
    { r with state := .lockout, timer := some 40 }).mapComp 0 fun r => { r with state := .faulted }).mapSched fun d =>
      { d with queue := [⟨0, .low, 0, false⟩] })

theorem witness_lockout_start : startable.quiescent ∧ (startable.comp 1).state = .lockout ∧
    (startable.comp 1).timer = some 40 ∧ startable.startBlocked 1 = false ∧ startable.sched.queue ≠ [] ∧
    (∀ k, k ≠ (1 : Comp) → (startable.comp k).state = .faulted) := by
  unfold State.quiescent
  decide +kernel

/-- Compressor 0 in a state with bank 0 as its target, its RUN_FB at point 0. -/
def feedbackRun (t : CompState) (k : BankState) : State :=
  (((withPoints [sensorEntry 39 7 512] [freshRecord 0] base).mapComp 0 fun r =>
    { r with state := t, target := some 0, timer := some 40 }).mapCopy 0 fun c => { c with state := k })

theorem witness_run_feedback : ∀ t ∈ [CompState.starting, .running, .switching, .unloaded, .lockout],
    reading (feedbackRun t .available) 39 0 = some (.runFb, .compressor 0) ∧
    ((feedbackRun t .available).comp 0).state = t ∧ ((feedbackRun t .available).comp 0).target = some 0 ∧
    ((feedbackRun t .available).copy 0).state = .available ∧ ((feedbackRun t .available).copy 0).pressure.valid = false ∧
    (feedbackRun t .available).events.flags.length = 46 := by decide +kernel

/-- R143, R144, R148: ON ends STARTING, in RUNNING or, the target lost, UNLOADED; OFF is RUN_LOST in a run. -/
theorem test_run_feedback :
    (next (.sample (from_ 39) [⟨0, .ok, 1⟩]) (feedbackRun .starting .available)).map (fun t =>
      ((t.comp 0).state, (t.comp 0).timer)) = some (.running, none) ∧
    (next (.sample (from_ 39) [⟨0, .ok, 1⟩]) (feedbackRun .starting .disabled)).map (fun t => (t.comp 0).state) =
      some .unloaded ∧
    (next (.sample (from_ 39) [⟨0, .ok, 0⟩]) (feedbackRun .running .available)).map (fun t =>
      ((t.comp 0).state, (t.comp 0).lastFault)) = some (.faulted, some .runLost) := by decide +kernel

/-- An ACTIVE PROTOCOL slot with the band edges 0, 100, 200, 300 and 400. -/
def edgedProtocol : KindStore :=
  activeKind 8 [some (headerWords ++ [0, 100, 200, 300, 400]), some headerWords, some comboWords]

/-- The station with AMBIENT, CHILLER_RUN and CHILLER_SUPPLY_T at points 0 to 2 and an outlet temperature at point 3; the
supply stands at its limit, 0, and the band edges at 0, 100, 200, 300 and 400. -/
def chilled (run : Int) (f : Cooling → Cooling) (s : State) : State :=
  ((withPoints [sensorEntry 35 8 0, sensorEntry 36 9 0, sensorEntry 37 10 0, sensorEntry 38 3 256]
    [freshRecord 0, freshRecord run, freshRecord 0, freshRecord 0] s).mapTables fun t =>
      { t with protocol := edgedProtocol }).mapCool f

theorem witness_station_readings : ∀ x ∈ [((35 : NodeAddr), 0, Fn.ambient), (36, 1, .chillerRun), (37, 2, .chillerSupplyT)],
    reading (chilled 1 id base) x.1 x.2.1 = some (x.2.2, .station) ∧ (chilled 1 id base).station.isSome = true ∧
    (chilled 1 id base).findPoint x.2.2 .station = some x.2.1 ∧ (chilled 1 id base).protocol.isSome = true := by
  decide +kernel

/-- R154: from band 1 the edge 100 takes the band to 2; from band 2 it stays at 90 and falls at 89. -/
theorem test_band :
    let band := fun (b : Fin 6) (v : Word) =>
      (next (.sample (from_ 35) [⟨0, .ok, v⟩]) (chilled 1 (fun c => { c with band := b }) base)).map fun t => t.cool.band
    band 1 100 = some 2 ∧ band 1 99 = some 1 ∧ band 2 90 = some 2 ∧ band 2 89 = some 1 := by decide +kernel

/-- R153: the capacity is that of the band while the chiller runs with its supply at or below the limit. -/
theorem test_capacity :
    (next (.sample (from_ 37) [⟨0, .ok, 0⟩]) (chilled 1 id base)).map (fun t => t.cool.capacity) = some 1000 ∧
    (next (.sample (from_ 37) [⟨0, .ok, 1⟩]) (chilled 1 id base)).map (fun t => t.cool.capacity) = some 0 := by decide +kernel

/-- Position 0 in ADMIT, the chiller about to run in band 0, an amount held by compressor 1, and a queue. -/
def waitingFor (held : Nat) (q : List CoolRequest) : State :=
  chilled 0 (fun c => { c with band := 0, table := [⟨.compressor 1, held, 7, none, false⟩], stamps := 7, queue := q })
    (((withSale .reserved (inState .admitting)).mapComp 0 fun r => { r with state := .coolWait }).mapSched fun d =>
      { d with queue := [⟨0, .low, 0, true⟩] })

/-- R158, R159: at 380 kW free, the demand of T40, position 0 is granted it, at 379 T30, and at 299 it stays and blocks. -/
theorem witness_grant :
    let s := waitingFor 620 [.position 0 .h70 none]
    (reading s 36 1 = some (.chillerRun, .station) ∧ (s.seq 0).state = .admitting ∧ (s.draw 0).claim = none ∧
      s.cool.allocOf (.position 0) = none ∧ (s.cool.monitors.get 0).level = false ∧ s.cool.capacity = 0 ∧
      s.events.flags.length = 46) ∧
    (next (.sample (from_ 36) [⟨0, .ok, 1⟩]) s).map (fun t => (t.cool.capacity, t.cool.queue, t.cool.table.tail)) =
      some (1000, [], [⟨.position 0, 380, 8, some ⟨.h70, 0, .t40, 0⟩, false⟩]) ∧
    (next (.sample (from_ 36) [⟨0, .ok, 1⟩]) (waitingFor 621 [.position 0 .h70 none])).map (fun t =>
      t.cool.table.tail) = some [⟨.position 0, 300, 8, some ⟨.h70, 0, .t30, 0⟩, false⟩] ∧
    (next (.sample (from_ 36) [⟨0, .ok, 1⟩]) (waitingFor 701 [.position 0 .h70 none])).map (fun t =>
      (t.cool.table.length, t.cool.queue)) = some (1, [.position 0 .h70 none]) := by decide +kernel

/-- R154, R158: a head that band 1 permits nothing is granted when AMBIENT, at −11, falls to band 0, whose capacity is the
same. -/
theorem test_band_alone_serves :
    let s := ((waitingFor 620 [.position 0 .h70 none]).setRecord 1 (freshRecord 1)).mapCool fun c =>
      { c with band := 1, capacity := 1000 }
    (next (.sample (from_ 35) [⟨0, .ok, 65526⟩]) s).map (fun t => (t.cool.band, t.cool.queue.length)) = some (1, 1) ∧
    (next (.sample (from_ 35) [⟨0, .ok, 65525⟩]) s).map (fun t => (t.cool.band, t.cool.capacity, t.cool.queue,
      t.cool.table.tail)) =
      some (0, 1000, [], [⟨.position 0, 380, 8, some ⟨.h70, 0, .t40, 0⟩, false⟩]) := by decide +kernel

/-- R158, R159: a fill held for COOLING at T40 takes it again at 380 kW free and goes on, takes T30 at 379, where VEHICLE holds it
still, and waits at 299. -/
theorem witness_held_grant :
    let held := fun n vehicle => (waitingFor n [.position 0 .h70 (some ⟨.h70, 0, .t40, 1⟩)]).mapSeq 0 fun q =>
      { q with state := .hold, category := some .t40, causes := ⟨vehicle, false, true, false⟩, resume := some .ramp }
    (reading (held 620 false) 36 1 = some (.chillerRun, .station) ∧ ((held 620 false).seq 0).causes.cooling = true ∧
      (held 620 false).cool.allocOf (.position 0) = none ∧ (held 620 false).bankValvesMatched 0 = true) ∧
    (next (.sample (from_ 36) [⟨0, .ok, 1⟩]) (held 620 false)).map (fun t => (t.cool.table.tail, (t.seq 0).state)) =
      some ([⟨.position 0, 380, 8, some ⟨.h70, 0, .t40, 1⟩, false⟩], .ramp) ∧
    (next (.sample (from_ 36) [⟨0, .ok, 1⟩]) (held 621 true)).map (fun t =>
      (t.cool.table.tail, (t.seq 0).category, (t.seq 0).state, (t.seq 0).causes.isEmpty)) =
      some ([⟨.position 0, 300, 8, some ⟨.h70, 0, .t30, 1⟩, false⟩], some .t30, .hold, false) ∧
    (next (.sample (from_ 36) [⟨0, .ok, 1⟩]) (held 701 false)).map (fun t => (t.cool.queue.length, (t.seq 0).state)) =
      some (1, .hold) := by decide +kernel

/-- R158, R159: a compressor is granted exactly the free capacity, and blocks above it. -/
theorem witness_compressor_grant :
    let s := waitingFor 620 [.compressor 0 380 false]
    ((s.comp 0).state = .coolWait ∧ s.sched.queue ≠ [] ∧ reading s 36 1 = some (.chillerRun, .station)) ∧
    (next (.sample (from_ 36) [⟨0, .ok, 1⟩]) s).map (fun t => ((t.comp 0).state, t.cool.table.tail.map Alloc.stamp)) =
      some (.starting, [8]) ∧
    (next (.sample (from_ 36) [⟨0, .ok, 1⟩]) (waitingFor 620 [.compressor 0 381 false])).map (fun t =>
      ((t.comp 0).state, t.cool.queue)) = some (.coolWait, [.compressor 0 381 false]) := by decide +kernel

/-- R160: a chiller that stops leaves nothing held, and the event carries both sums. -/
theorem witness_reclaim :
    let s := chilled 1 (fun c => { c with capacity := 1000, table := [⟨.compressor 1, 620, 7, none, false⟩], stamps := 7 }) base
    (reading s 36 1 = some (.chillerRun, .station) ∧ s.events.flags.length = 46 ∧ s.cool.heldSum = 620) ∧
    (next (.sample (from_ 36) [⟨0, .ok, 0⟩]) s).map (fun t =>
      (t.cool.table, (t.flag .capacityReduced .station).map Flag.detail)) =
      some ([], some (.capacity 0 620 0)) := by decide +kernel

/-- A fill at T40 and a run of C1, not critical, that hold all of the 1000 kW of band 0; band 1 leaves 380, band 2 379. -/
def shrinking : State :=
  let s := (withSale .opened (fill fun q => { q with state := .ramp, band := some 0, category := some .t40 })).mapComp 1
    fun r => { r with state := .running }
  let s := chilled 1 (fun c =>
    { c with
      band := 0, capacity := 1000, stamps := 7
      table := [⟨.position 0, 380, 5, some ⟨.h70, 0, .t40, 0⟩, false⟩, ⟨.compressor 1, 620, 7, none, false⟩] }) s
  s.mapTables fun t => { t with
    site := { t.site with
      slotA := { t.site.slotA with
        segments := t.site.slotA.segments.set 50 (some [1000, 380, 379, 1000, 1000, 1000, 0, 0, 10, 0]) } } }

/-- R160, R161: down to 380 the run alone is taken; down to 379 the fill goes to T30 too. -/
theorem witness_reclaim_order : (reading shrinking 35 0 = some (.ambient, .station) ∧ shrinking.station.isSome = true ∧
      shrinking.cool.heldSum = 1000) ∧
    (next (.sample (from_ 35) [⟨0, .ok, 0⟩]) shrinking).map (fun t => (t.cool.capacity, t.cool.table, (t.comp 1).state)) =
      some (380, [⟨.position 0, 380, 5, some ⟨.h70, 0, .t40, 0⟩, false⟩], .lockout) ∧
    (next (.sample (from_ 35) [⟨0, .ok, 100⟩]) shrinking).map (fun t => (t.cool.capacity, t.cool.table)) =
      some (379, [⟨.position 0, 300, 5, some ⟨.h70, 0, .t30, 1⟩, false⟩]) := by decide +kernel

theorem witness_reclaim_orderly : shrinking.cool.Orderly :=
  ⟨by decide, by decide, by decide, by decide, by decide⟩

/-- R157: C0's fault releases its allocation before C1's request, critical and of the same event, is taken: the waiting
position is served with the freed capacity, and the request waits. -/
theorem test_release_served_first :
    let s := (((waitingFor 620 [.position 0 .h70 none]).mapCool fun c =>
      { c with capacity := 400, table := [⟨.compressor 0, 400, 7, none, false⟩] }).mapComp 0 fun r =>
        { r with state := .starting, timer := some 40 }).mapComp 1 fun r => { r with state := .coolWait }
    (next (.startTimerExpiry 0) s).map (fun t => (t.cool.table.map Alloc.holder, t.cool.queue.map CoolRequest.holder)) =
      some ([.position 0], [.compressor 1]) := by decide +kernel

/-- R134: a port freed while another position waits for it is no choice's to take. -/
theorem test_freed_port_is_the_waiters :
    let s := base.mapBank 0 fun b => { b with queue := [1] }
    s.hasPort 0 = true ∧ s.offersPort 0 = false ∧ base.offersPort 0 = true := by decide +kernel

/-- A flowing fill at T40, whose limit in the bound slot is 0, with an outlet temperature at point 3. -/
def outletAt (t : PosState) (grace : Option Count) (level : Bool) : State :=
  (chilled 1 id (withSale .opened (fill fun q =>
    { q with state := t, band := some 0, category := some .t40 }))).mapMonitor 0 fun m =>
      { m with grace := grace, level := level }

/-- R163: at the limit the outcome is WITHIN; above it BEYOND starts the grace timer of 15,000 ms in RAMP. -/
theorem witness_outlet_reading : (∀ t ∈ [PosState.pulse, .ramp],
      reading (outletAt t none false) 38 3 = some (.outletT, .position 0) ∧
      (outletAt t none false).findPoint .outletT (.position 0) = some 3 ∧
      ((outletAt t none false).seq 0).state.flowing = true ∧ ((outletAt t none false).seq 0).category = some .t40 ∧
      (((outletAt t none false).boundProtocol 0).map fun g => g.categoryLimit .t40) = some 0) ∧
    (next (.sample (from_ 38) [⟨0, .ok, 0⟩]) (outletAt .ramp (some 70) true)).map (fun t =>
      ((t.cool.monitors.get 0).last, (t.cool.monitors.get 0).grace, (t.cool.monitors.get 0).level)) =
      some (.within, none, false) ∧
    (next (.sample (from_ 38) [⟨0, .ok, 1⟩]) (outletAt .ramp none false)).map (fun t =>
      ((t.cool.monitors.get 0).last, (t.cool.monitors.get 0).grace)) = some (.beyond, some 15000) := by decide +kernel

/-- Position 0 with an allocation of T40 and both outlet timers running. -/
def cooled : State :=
  ((withSale .opened (fill fun q => { q with state := .ramp, band := some 0, category := some .t40 })).mapCool fun c =>
    { c with capacity := 1000, table := [⟨.position 0, 380, 0, some ⟨.h70, 0, .t40, 0⟩, false⟩] }).mapMonitor 0 fun m =>
      { m with settle := some 30, grace := some 70 }

theorem witness_outlet_monitor : cooled.quiescent ∧ (cooled.cool.monitors.get 0).settle = some 30 ∧
    (cooled.cool.monitors.get 0).grace = some 70 ∧
    (cooled.cool.allocOf (.position 0)).bind (cooled.downgradeCategory 0) = some .t30 ∧
    (let s := base.mapMonitor 0 fun m => { m with grace := some 70 }
     (s.cool.allocOf (.position 0)).bind (s.downgradeCategory 0) = none ∧ s.events.flags.length = 46) := by
  unfold State.quiescent
  decide +kernel

/-! ## Hypotheses met: notices and reports -/

/-- The station with a frame under transmission and a number of notices waiting. -/
def noticed (n : Nat) : State :=
  base.mapRing fun r => { r with
    sending := some (.trip ⟨false, none⟩), notices := List.replicate n ⟨10, .commandBlocked, .station, .point 1, 1⟩ }

/-- R194, R195: RING_DROP becomes set with kind 14 enabled; its NOTICE is sent at once on an idle ring-out, is the 16th to wait
behind 15, and is not placed behind 16. -/
theorem witness_bad_frame_notice :
    (base.flag .ringDrop .station = none ∧ base.events.enable.toNat.testBit 13 = true ∧ base.addressed = true) ∧
    (∀ n ∈ [15, 16], (noticed n).quiescent ∧ (noticed n).ring.Served ∧ (noticed n).flag .ringDrop .station = none) ∧
    (next (.badFrame []) base).map (fun t => t.ring.sending) =
      some (some (.notice ⟨10, .ringDrop, .station, .drops 1, 1⟩)) ∧
    (∀ n ∈ [15, 16], (next (.badFrame []) (noticed n)).map (fun t => t.ring.notices.length) = some 16) := by
  unfold State.quiescent Ring.Served
  decide +kernel

/-- Positions 0 and 1 flowing, with a pressure at position 1, DEGRADED. -/
def flowing (v : Int) : State :=
  ((inState .ramp).mapSeq 1 fun q => { q with state := .hold }).mapPoints fun u => { u with
    pairs := (Six.all ⟨.single, ⟨300, .good, false⟩⟩).set 1 ⟨.single, ⟨v, .degraded, false⟩⟩ }

/-- R16, R17: the scan reports the greatest value with its lane, the lowest of equal ones, and the worst quality; where nothing
flows it reports none. -/
theorem test_status_scan :
    let highest := fun (s : State) => (next (.statusRead sup) s).bind fun t => match t.ring.sending with
      | some (.response (.mresp _ _ _ _ _ (.status r))) => some r.highest
      | _ => none
    highest (flowing 301) = some (some ⟨⟨301, .degraded, false⟩, 1⟩) ∧
    highest (flowing 300) = some (some ⟨⟨300, .degraded, false⟩, 0⟩) ∧ highest base = some none := by decide +kernel

/-- O15: a position that is paused and one that is not, a compressor with a request and one with none. -/
theorem witness_reads_by_state :
    let s := (waitingFor 620 [.compressor 0 380 true]).mapSeq 0 fun q => { q with state := .hold }
    accepts s sup = true ∧ s.site.isSome = true ∧ (s.seq 0).state = .hold ∧ (s.seq 5).state = .idle ∧
    s.cool.allocOf (.compressor 0) = none ∧ (s.cool.allocOf (.compressor 1)).isSome = true ∧
    s.cool.queue.find? (fun x => x.holder == .compressor 0) = some (.compressor 0 380 true) ∧
    (compIn .running).site.isSome = true ∧ s.station.isSome = true ∧ base.station.isSome = true := by decide +kernel

/-! ## Hypotheses met: what a trip and RESTART reach -/

/-- The two positions of a trip: position 0 in a state with its OPEN record, position 1 AUTHORIZED with its RESERVED one, and
compressor 0 waiting for cooling, compressor 1 in a run with an allocation. -/
def tripping (t : PosState) : State :=
  (((((inState t).mapSeq 1 fun q => { q with state := .authorized, sale := some 2, couple := some 40 }).mapSales fun u =>
    { u with log := some (sale .opened) :: some { sale .reserved with number := 2, position := 1 } ::
      List.replicate 126 none }).mapComp 0 fun r => { r with state := .coolWait }).mapComp 1 fun r =>
        { r with state := .running, target := some 0 }).mapCool fun c =>
          { c with table := [⟨.compressor 1, 380, 1, none, false⟩], stamps := 1, queue := [.compressor 0 380 false] }

/-- R114, R150: the hypotheses of every field of State.Tripped, for a fill in RAMP and in VENT and for DONE. -/
theorem witness_tripped : (∀ t ∈ [PosState.ramp, .vent, .done], accepts (tripping t) sup = true ∧
      (tripping t).points.trip = .clear ∧ (tripping t).points.linePulled = false ∧
      (tripping t).events.flags.length = 46 ∧ ((tripping t).seq 0).state = t ∧
      (t ≠ .done → ((tripping t).seq 0).state.metered = true) ∧ (tripping t).recordSlot 0 = some 0 ∧
      (tripping t).logAt 0 = some (sale .opened) ∧ (sale .opened).vent = none ∧ (tripping t).recordSlot 1 = some 1 ∧
      ((tripping t).comp 1).state.inRun = true) ∧
    (∀ o ∈ [next (.tripSet sup) (tripping .ramp), next .tripLineLow (tripping .ramp)], o.any fun t =>
      (t.seq 0).state == .halted && (t.seq 1).state == .idle && (t.logAt 0).bind SaleRecord.reason == some .trip &&
      t.logAt 1 == none && (t.comp 0).state == .stopped && (t.comp 1).state == .lockout &&
      (t.comp 1).lastStop == some .trip && t.cool.queue == [] && t.cool.table == []) := by decide +kernel

/-- A settle with the TRIP_RESET still to answer, an OPEN record of position 0, and bank 0 AVAILABLE at a pressure. -/
def restarting (pressure : Int) : State :=
  ((banked pressure (withSale .opened { tripState .settling with seqs := (inState .ramp).seqs })).mapRing fun r =>
    { r with deferred := some ⟨10, 4⟩ }).mapCopy 0 fun c => { c with state := .available, pressure := ⟨pressure, .good, false⟩ }

/-- R38, R199, R141: with an ACTIVE SITE slot the TRIP_RESET is answered BUSY, and of the flags SALE_CLOSED alone is set, with
BANK_CRITICAL where the bank joins the queue below its critical threshold, 1800. -/
theorem witness_restart_site : (∀ v ∈ [(1799 : Int), 1800], accepts (restarting v) sup = true ∧
      (restarting v).site.isSome = true ∧ (restarting v).points.trip = .settling ∧
      (restarting v).ring.deferred = some ⟨10, 4⟩ ∧ (restarting v).saleOf 0 = some (sale .opened)) ∧
    let told := fun v => (next (.restart sup) (restarting v)).map fun t =>
      (t.points.trip, t.ring.sending, t.events.flags.countP Option.isSome, (t.flag .bankCritical (.bank 0)).isSome)
    told 1799 = some (.latched, some (.response (.mresp 10 4 33 .busy false .none)), 2, true) ∧
    told 1800 = some (.latched, some (.response (.mresp 10 4 33 .busy false .none)), 1, false) := by decide +kernel

/-! ## Hypotheses met: the replenishment queue -/

/-- The station with watched points, bank 0 in a state and queued or not with its critical mark clear. -/
def banking (k : BankState) (queued : Bool) (t : CompState) : State :=
  ((((watching .disarmed).mapBank 0 fun b => { b with state := k }).mapCopy 0 fun b => { b with state := k }).mapComp 0
    fun r => { r with state := t, timer := some 40 }).mapSched fun d =>
      { d with arrivals := 3, queue := if queued then [⟨0, .low, 3, false⟩] else [] }

/-- R139 to R141, R146: bank 0 joins below its restart threshold, 3500, or is taken by an UNLOADED compressor, leaves at its
ceiling, 4500, and when its pressure becomes INVALID; below 1800 it is critical, and BANK_CRITICAL set. -/
theorem witness_bank_scheduled :
    (∀ k ∈ [BankState.available, .unknown], ∀ q ∈ [true, false], ∀ t ∈ [CompState.faulted, .unloaded],
      let s := banking k q t
      reading s 36 5 = some (.bankP, .bank 0) ∧ s.targeted 0 = false ∧ s.queued 0 = q ∧ (s.bank 0).state = k ∧
      (s.comp 0).state = t ∧ (s.comp 1).state = .stopped ∧ s.events.flags.length = 46) ∧
    ∀ x ∈ [(BankState.available, false, CompState.faulted, Status.ok, (3500 : Word), [], none, false),
        (.available, false, .faulted, .ok, 3499, [⟨0, .low, 4, false⟩], none, false),
        (.unknown, false, .faulted, .ok, 1800, [⟨0, .low, 4, false⟩], none, false),
        (.unknown, false, .faulted, .ok, 1799, [⟨0, .low, 4, true⟩], none, true),
        (.available, false, .unloaded, .ok, 1799, [], some 0, true),
        (.available, true, .faulted, .ok, 4499, [⟨0, .low, 3, false⟩], none, false),
        (.available, true, .faulted, .ok, 1799, [⟨0, .low, 3, true⟩], none, true),
        (.available, true, .faulted, .ok, 4500, [], none, false),
        (.available, true, .faulted, .fault, 0, [], none, false)],
      (next (.sample (from_ 36) [⟨0, x.2.2.2.1, x.2.2.2.2.1⟩]) (banking x.1 x.2.1 x.2.2.1)).map (fun u =>
        (u.sched.queue, (u.comp 0).target, (u.flag .bankCritical (.bank 0)).isSome)) = some x.2.2.2.2.2 := by
  decide +kernel

/-! ## Hypotheses met: PULSE entry -/

/-- Position 0 in ADMIT with its draw port, at the head of the allocator's queue with 620 kW held by another; the meter can count
the fill or not, and a link is stored. -/
def portHeld (meter : Bool) (c : VehicleCommand) : State :=
  let points := [sensorEntry 35 8 0, sensorEntry 36 9 0, sensorEntry 37 10 0, driveEntry 30 13 256 1 65535]
  let records := [freshRecord 0, freshRecord 0, freshRecord 0, driveRecord .auto]
  (((withPoints points records (waitingFor 620 [.position 0 .h70 none])).mapSeq 0 fun q =>
    { q with link := some { linkOf .pending with command := c } }).setDraw 0 ⟨some 0, none, some 0⟩).mapSales fun u =>
      { u with intake := u.intake.set 0 ⟨some 100, .fresh, some 60, meter, .gasClosed⟩ }

/-- `portHeld` with a level condition active that has not been raised since the authorization, and the reaction to it. -/
def carrying (c : Condition) (r : Reaction) : State :=
  let s := (portHeld true .run).mapSeq 0 fun q => { q with active := q.active.put c true }
  s.setReactions (s.reactions.set (cellIndex c .flowing) r)

/-- R80, R82, R122, R171, R177: granted last of the two, the cooling takes ADMIT to PULSE with the record OPEN and the valve at
150; a stored HALT takes it on to HOLD, and a meter that cannot count is marked and raised. -/
theorem witness_pulse_entry : (∀ m ∈ [true, false], ∀ c ∈ [VehicleCommand.run, .halt],
      let s := portHeld m c
      reading s 36 1 = some (.chillerRun, .station) ∧ s.station.isSome = true ∧
      s.cool.queue = [.position 0 .h70 none] ∧ s.cool.allocOf (.position 0) = none ∧
      (s.cool.monitors.get 0).level = false ∧ (s.seq 0).state = .admitting ∧ (s.draw 0).claim.isSome = true ∧
      s.cool.heldSum = 620 ∧ (s.combinationAt 0 0 .t40).demand = 380 ∧ (s.combinationAt 0 0 .t40).aprr ≠ 0 ∧
      (∀ k ∈ List.range 14, (conditionOfCode k).all (fun d => !(d.isLevel && (s.seq 0).active.has d)) = true) ∧
      ((s.posSite 0).map PosSite.meter = some 50) ∧ s.events.flags.length = 46) ∧
    ∀ x ∈ [(true, VehicleCommand.run, PosState.pulse, RecordState.opened, false, (150 : Int)),
        (true, .halt, .hold, .opened, false, 0), (false, .run, .vent, .opened, true, 0)],
      (next (.sample (from_ 36) [⟨0, .ok, 1⟩]) (portHeld x.1 x.2.1)).any (fun t =>
        (t.seq 0).state == x.2.2.1 && (t.logAt 0).any (fun r => r.state == x.2.2.2.1 && r.marks.meterSuspect == x.2.2.2.2.1) &&
        (t.act 3).map ActRecord.auto == some x.2.2.2.2.2) = true := by decide +kernel

/-- R104: a level carried in is raised at the entry; its reaction HOLD has the fill wait with the cause CONDITION. -/
theorem witness_pulse_entry_carries :
    ∀ x ∈ [(Reaction.note, PosState.pulse, false, (150 : Int)), (.hold, .hold, true, 0), (.finish, .vent, false, 0),
        (.halt, .halted, false, 0)],
      let s := carrying .sensorStale x.1
      reading s 36 1 = some (.chillerRun, .station) ∧ s.reactionOf .sensorStale .flowing = x.1 ∧
      (s.seq 0).active.sensorStale = true ∧ (s.seq 0).raised.sensorStale = false ∧
      (s.seq 0).active.overpressure = false ∧ (s.seq 0).active.sensorDisagree = false ∧
      (s.seq 0).active.outOfCategory = false ∧
      (next (.sample (from_ 36) [⟨0, .ok, 1⟩]) s).any (fun t => (t.seq 0).state == x.2.1 &&
        (t.seq 0).causes.condition == x.2.2.1 && (t.flag .condition (.position 0)).isSome &&
        (x.1 == .halt || (t.act 3).map ActRecord.auto == some x.2.2.2)) = true := by decide +kernel

/-- Position 0 at the head of bank 0's port queue with its cooling granted at T40 in band 0, and its meter ready. -/
def portQueued : State :=
  ((((banked 300 (withSale .reserved (inState .admitting))).mapBank 0 fun b => { b with queue := [0, 1] }).setDraw 0
    ⟨none, some 0, some 0⟩).mapCool fun c => { c with
      capacity := 1000, table := [⟨.position 0, 380, 1, some ⟨.h70, 0, .t40, 0⟩, false⟩], stamps := 1 }).mapSales fun u =>
        { u with intake := u.intake.set 0 ⟨some 100, .fresh, some 60, true, .gasClosed⟩ }

/-- R134, R80: the freed port is the head's, who enters PULSE. -/
theorem witness_port_entry :
    (portQueued.bank 0).queue = [0, 1] ∧ portQueued.hasPort 0 = true ∧
    portQueued.suits 0 0 (portQueued.reference 0) = true ∧ (portQueued.seq 0).state = .admitting ∧
    (portQueued.cool.allocOf (.position 0)).bind Alloc.fill = some ⟨.h70, 0, .t40, 0⟩ ∧
    (portQueued.seq 0).active = LevelSet.empty ∧ (portQueued.seq 0).link = none ∧
    ((portQueued.portRound 0).seq 0).state = .pulse ∧ ((portQueued.portRound 0).bank 0).queue = [1] := by decide +kernel

/-! ## Hypotheses met: the evaluation of a pressure in RAMP -/

/-- `ramping` at a time, with an opening, a window of two OUT outcomes, and a reaction to CONFORMANCE_LOSS. -/
def evaluating (count : Count) (r : Reaction) : State :=
  let s := (ramping.mapTime fun u => { u with count := count }).mapSeq 0 fun q =>
    { q with opening := 150, window := [.outOfBand, .outOfBand] }
  s.setReactions (s.reactions.set (cellIndex .conformanceLoss .flowing) r)

/-- R87, R50: from the ramp start delay on, 5000 ms, the third OUT of the window, which N is, raises CONFORMANCE_LOSS and clears the
window; the valve step follows where the reaction lets the fill go on.  On the target, 450, the outcome is IN and the step 0. -/
theorem witness_conformance :
    ∀ x ∈ [((4999 : Count), Reaction.note, (3000 : Word), PosState.ramp, (2 : Nat), (130 : Int), false),
        (5000, .note, 3000, .ramp, 0, 130, true), (5000, .hold, 3000, .ramp, 0, 130, true),
        (5000, .finish, 3000, .vent, 2, 0, true), (5000, .halt, 3000, .halted, 0, 150, true),
        (5000, .note, 450, .ramp, 3, 150, false)],
      let s := evaluating x.1 x.2.1
      reading s 21 4 = some (.outletPA, .position 0) ∧ (s.seq 0).state = .ramp ∧ (s.seq 0).rampBase.isSome = true ∧
      s.stillSuits 0 3000 = true ∧ s.events.flags.length = 46 ∧
      (next (.sample (from_ 21) [⟨0, .ok, x.2.2.1⟩]) s).any (fun t => calm s t 0 && (t.seq 0).state == x.2.2.2.1 &&
        ((t.seq 0).state != .ramp || (t.seq 0).window.length == x.2.2.2.2.1) &&
        (x.2.2.2.1 == .halted || (t.act 1).map ActRecord.auto == some x.2.2.2.2.2.1) &&
        (t.flag .condition (.position 0)).isSome == x.2.2.2.2.2.2) = true := by decide +kernel

/-- R86, R51: at an INVALID pressure, the level of its staleness active already, the opening of 150 is held. -/
theorem witness_ramp_held :
    let s := (evaluating 5000 .note).mapSeq 0 fun q => { q with active := q.active.put .sensorStale true }
    reading s 21 4 = some (.outletPA, .position 0) ∧ (s.seq 0).overTest = .none ∧
    (next (.sample (from_ 21) [⟨0, .fault, 0⟩]) s).any (fun t => calm s t 0 && (t.combined 0).valid == false &&
      (t.seq 0).state == .ramp && (t.seq 0).window.length == 2 && (t.seq 0).opening == 150 &&
      (t.act 1).map ActRecord.auto == some 150) = true := by decide +kernel

/-- Position 0 in RAMP drawing on bank 0, the first of the banks 0 and 1 of its sequence; the pressures of both, and the port queue
of bank 1, and whether its valve has a feedback point. -/
def drawing (a b : Int) (queue : List Pos) (fed : Bool) : State :=
  let bank : List Word := [0, 4500, 3500, 1800, 1, 120]
  let valve := fun (node bank feedback : Word) => [node, 0, 15, 256, 0, 0, 0, 0, 0, bank, 0, 0, 500, feedback, 100]
  let s := withPoints
    [sensorEntry 20 4 256, driveEntry 30 13 256 1 65535, valve 31 0 65535, valve 32 1 (if fed then 5 else 65535),
      sensorEntry 21 1 256, sensorEntry 33 12 256]
    [freshRecord 0, driveRecord .auto, .actuator ⟨1, 0, true, .auto, 1, 700, .matched, none⟩,
      .actuator ⟨0, 0, true, .auto, 0, 700, .matched, none⟩, freshRecord 300, freshRecord 0]
    (ramping.mapSeq 0 fun q => { q with opening := 150 })
  let s := s.mapTables fun t => { t with
    site := { t.site with
      slotA := { t.site.slotA with
        segments := t.site.slotA.segments.set 48
          (some (bank ++ bank ++ bank ++ bank ++ bank ++ bank ++ [2, 0, 1, 0, 0, 0, 0] ++ List.replicate 7 0)) } } }
  ((s.mapBank 0 fun k => { k with
      state := .available, pressure := ⟨a, .good, false⟩, drawers := (Six.all false).set 0 true }).mapBank 1 fun k =>
    { k with state := .available, pressure := ⟨b, .good, false⟩, queue := queue }).setDraw 0 ⟨some 0, none, some 0⟩
/-- R90, R132: at 300 the switch differential, 300, is left on bank 0 at 600; at 599 the fill claims bank 1 at 600, by SWITCH where
that valve is not MATCHED at once, waits where another does, and has its supply exhausted at 599. -/
theorem witness_switch_test :
    ∀ x ∈ [((600 : Int), (0 : Int), ([] : List Pos), false, PosState.ramp, (⟨some 0, none, some 0⟩ : Draw), (170 : Int)),
        (599, 600, [], false, .ramp, ⟨some 1, none, some 1⟩, 150), (599, 600, [], true, .switch, ⟨some 1, none, some 1⟩, 0),
        (599, 600, [1], false, .hold, ⟨none, some 1, some 1⟩, 0), (599, 599, [], false, .vent, Draw.empty, 0)],
      let s := drawing x.1 x.2.1 x.2.2.1 x.2.2.2.1
      reading s 21 4 = some (.outletPA, .position 0) ∧ s.stillSuits 0 300 = decide (x.1 = 600) ∧
      (s.seq 0).causes = HoldCauses.empty ∧ (s.draw 0).index = some 0 ∧
      s.choose 0 1 300 = (if x.2.1 < 600 then .exhausted else if x.2.2.1 = [] then .claim 1 1 else .wait 1 1) ∧
      (next (.sample (from_ 21) [⟨0, .ok, 300⟩]) s).any (fun t => calm s t 0 && (t.seq 0).state == x.2.2.2.2.1 &&
        t.draw 0 == x.2.2.2.2.2.1 && (t.act 1).map ActRecord.auto == some x.2.2.2.2.2.2) = true := by decide +kernel

/-! ## Hypotheses met: the chiller setpoint and the category settle timer -/

/-- `cooled` with a CHILLER_SETPOINT point and the category limits −32.0, −25.0 and −16.0 °C less a margin of 5.0 °C. -/
def cooledTo : State :=
  (withPoints [sensorEntry 20 4 256, driveEntry 30 13 256 1 65535, driveEntry 113 18 0 0 65535]
    [freshRecord 2, driveRecord .auto, driveRecord .auto] cooled).mapTables fun t =>
      { t with protocol := activeKind 8 ((protocolWords 7000).set 2 (some comboWords)) }

theorem witness_setpoint : cooledTo.quiescent ∧ (cooledTo.cool.monitors.get 0).grace = some 70 ∧
    ((cooledTo.cool.allocOf (.position 0)).bind (cooledTo.downgradeCategory 0)) = some .t30 ∧
    cooledTo.station.isSome = true ∧ cooledTo.protocol.isSome = true ∧
    cooledTo.findPoint .chillerSetpoint .station = some 2 ∧ (cooledTo.act 2).isSome = true ∧
    accepts cooledTo sup = true := by
  unfold State.quiescent
  decide +kernel

/-- R163 to R165: moved to T30 in RAMP at the expiry, 70, the fill restarts its category settle timer of 10,000 ms and its ramp, and
the setpoint is −25.0 °C less 5.0 °C; with the fill ENDed the setpoint is the idle one, 0. -/
theorem test_setpoint :
    (next (.graceTimerExpiry 0) cooledTo).map (fun t => ((t.seq 0).category, (t.seq 0).rampMark,
      (t.cool.monitors.get 0).settle, (t.act 2).map ActRecord.auto, t.cool.fromScan)) =
      some (some .t30, 70, some 10070, some (-300), true) ∧
    (next (.positionStop sup 0) cooledTo).map (fun t => ((t.act 2).map ActRecord.auto, t.cool.fromScan)) =
      some (some 0, false) := by decide +kernel

/-- R163: a fill held for COOLING that goes on to RAMP with its grant starts the category settle timer, 10,000 ms. -/
theorem test_grant_starts_the_settle :
    let s := (waitingFor 620 [.position 0 .h70 (some ⟨.h70, 0, .t40, 1⟩)]).mapSeq 0 fun q =>
      { q with state := .hold, category := some .t40, causes := ⟨false, false, true, false⟩, resume := some .ramp }
    (next (.sample (from_ 36) [⟨0, .ok, 1⟩]) s).map (fun t => ((t.seq 0).state, (t.cool.monitors.get 0).settle)) =
      some (.ramp, some 10000) := by decide +kernel

/-! ## Hypotheses met: power-up, arithmetic, invariants -/

theorem witness_power_up : State.reset.points.linePulled = false ∧
    (base.mapPoints fun u => { u with linePulled := true }).points.linePulled = true ∧ base.site.isSome = true ∧
    ∀ t ∈ [RecordState.reserved, .opened], (withSale t (inState .ramp)).recordSlot 0 = some 0 ∧
      (withSale t (inState .ramp)).logAt 0 = some (sale t) := by decide +kernel

/-- Position 0 in RAMP on a FLEET sale of contract 9, tier 2, with 500 g reserved and 800 g delivered. -/
def fleet : State :=
  (inState .ramp).mapSales fun u => { u with
    log := some { sale .opened with card := .fleet, contract := some 9, reservation := some 500, gross := 800 } ::
      List.replicate 127 none
    contracts := [{ contractOf 9 500 with tier := 2 }] }

/-- R66, R67, R178, R185: a power-up keeps the contract, bills the 500 g of the closure to it, and leaves nothing reserved or
bound. -/
theorem witness_power_up_contract : (fleet.contract 9).isSome = true ∧ fleet.recordSlot 0 = some 0 ∧
    (∀ i ∈ List.range 128, (fleet.logAt i).all fun r => r.state == .closed || fleet.recordSlot r.position == some i) ∧
    (next (.powerUp 1 true) fleet).map (fun t => (t.contract 9, t.tables.gas.slotA.binds)) =
      some (some ⟨9, true, 2, true, true, 60000, 59500, 0, 1⟩, 0) := by decide +kernel

/-- R42, R43: at the upper edges of the grid, where the clauses meet, the density is the last entry. -/
theorem witness_density_edge :
    let g := activeSlot (List.replicate 34 none ++ [some (List.replicate 16 0 ++ [2408])])
    g.grid 40 16 = 2408 ∧ g.densityAt (250 * 39 + 250) (100 * 15 + 100) = 2408 := by decide +kernel

/-- R50: the edges of the marks: a step of exactly the maximum is not clipped, and an opening of exactly the limit not
saturated. -/
theorem witness_valve_edges : valveStep 64 ⟨0, .good, false⟩ 90 10 10 100 = ⟨100, false, false, false⟩ ∧
    valveStep 64 ⟨0, .good, false⟩ 91 10 10 100 = ⟨100, false, true, false⟩ ∧
    valveStep 71 ⟨0, .good, false⟩ 50 10 10 100 = ⟨60, true, false, false⟩ ∧
    valveStep 64 ⟨0, .invalid, false⟩ 90 10 10 100 = ⟨90, false, false, true⟩ := by decide +kernel

theorem witness_step_invariants :
    base.ring.Bounded ∧ base.ring.Served ∧ base.ring.answering = false ∧ base.quiescent ∧ base.TripSafe ∧ base.Shaped ∧
    cooled.cool.Orderly ∧ (∃ t, step (base.setPending [.tripSet sup]) = .next t) :=
  ⟨by unfold Ring.Bounded; decide, by unfold Ring.Served; decide, rfl, rfl, fun h => absurd h (by decide),
    ⟨rfl, rfl, rfl, rfl⟩, ⟨by decide, by decide, by decide, by decide, by decide⟩, _, rfl⟩

end Sys2Proof.Tests
end

section
/-! SUPPORT. What an event does when its command finds nothing to do, and when it is a request that is carried out: said
once, for the statements about single requests and timers. -/

namespace Sys2Proof.Machine

variable {s : State} {h : Header}

/-! ## Events that change nothing, and events that only answer -/

theorem State.event_of_body_eq {body : State → State} {t : State} (e : body s = t) (q : t.quiescent) :
    s.event body = .next t := by
  rw [State.event_eq, e, State.settle_of_quiescent q]

theorem State.expire_of_eq_none {d : Option Count} (e : d = none) (body : State → State) : s.expire d body = s := by
  subst e; rfl

/-- An accepted request whose body does nothing but answer, with its place in the response queue taken. -/
theorem State.event_answer (a : s.Accepts h) {w : Word} {content : List Word} {body : State → State} {code : Nat}
    {res : Result} {clamped : Bool} {c : Content}
    (e : body (s.mapRing fun r => { r with answering := true }) = s.answer h code res clamped c) :
    (s.event fun s => s.mreqIn h w content body) = .next (s.answer h code res clamped c) :=
  State.event_of_body_eq ((State.mreqIn_accepts a _ _ _).trans e) a.quiet

/-! ## Stopped timers (R8, R77, R197) -/

theorem State.pointDeadline_eq_none {i : Nat} (e : ∀ r, s.live i = some r → r.deadline = none) :
    s.pointDeadline i = none := by
  unfold State.pointDeadline
  cases k : s.live i with
  | none => rfl
  | some r => exact e r k

theorem State.discrepancyDeadline_eq_none {i : Nat} (e : ∀ r, s.act i = some r → r.discrepancy = none) :
    s.discrepancyDeadline i = none := by
  unfold State.discrepancyDeadline
  cases k : s.act i with
  | none => rfl
  | some r => exact e r k

theorem State.pulseDeadline_eq_none {p : Pos} {f : PulsePhase} (e : (s.seq p).pulse = none ∨ (s.seq p).phase ≠ f) :
    s.pulseDeadline p f = none := by
  unfold State.pulseDeadline
  split
  · exact e.resolve_right (not_not_intro ‹_›)
  · rfl

theorem State.compTimer_eq_none {c : Comp} {t : CompState} (e : (s.comp c).timer = none ∨ (s.comp c).state ≠ t) :
    s.compTimer c t = none := by
  unfold State.compTimer
  split
  · exact e.resolve_right (not_not_intro ‹_›)
  · rfl

/-- Settles O4: with its timer stopped an expiry carries nothing out, and with no hand-over waiting nothing is settled. -/
theorem stoppedTimerDoesNotExpire : Obligations.StoppedTimerDoesNotExpire := by
  intro s q
  have stopped {d : Option Count} (e : d = none) {f g : State → State} (hf : f s = s.expire d g) : s.event f = .next s :=
    State.event_of_body_eq (hf.trans (State.expire_of_eq_none e g)) q
  refine ⟨fun i => ⟨fun e => ?_, fun e => ?_, fun e => ?_⟩, fun e => stopped e rfl, fun p => ?_, fun c => ?_, fun e => ?_⟩
  · exact stopped (State.pointDeadline_eq_none e) rfl
  · exact stopped (show s.refreshDeadline i.val = none by rw [State.refreshDeadline, e]; rfl) rfl
  · exact stopped (State.discrepancyDeadline_eq_none e) rfl
  · refine ⟨fun e => stopped e rfl, fun e => stopped e rfl, fun e => ?_, fun e => ?_, fun e => stopped e rfl,
      fun e => stopped e rfl, fun e => stopped e rfl, fun e => stopped e rfl, fun e => stopped e rfl⟩
    · exact stopped (State.pulseDeadline_eq_none (f := .opening) (e.imp_right fun k => by rw [k]; decide)) rfl
    · exact stopped (State.pulseDeadline_eq_none (f := .settling) (e.imp_right fun k => by rw [k]; decide)) rfl
  · exact ⟨fun e => ⟨stopped (State.compTimer_eq_none (t := .starting) (.inl e)) rfl,
        stopped (State.compTimer_eq_none (t := .unloaded) (.inl e)) rfl,
        stopped (State.compTimer_eq_none (t := .lockout) (.inl e)) rfl⟩,
      fun e => stopped (State.compTimer_eq_none (.inr e)) rfl, fun e => stopped (State.compTimer_eq_none (.inr e)) rfl,
      fun e => stopped (State.compTimer_eq_none (.inr e)) rfl⟩
  · exact State.event_of_body_eq (by simp [e]) q

end Sys2Proof.Machine
end

section
/-! SUPPORT. The index a request names, and how a request on a position, a bank, a compressor or a point is refused
(R18, R26, R98 to R101, R136, section 9.4). -/

namespace Sys2Proof.Machine

variable {s : State} {h : Header} {w : Word}

/-! ## Indices named by words -/

theorem positionOfWord_eq_none (o : 5 < w.toNat) : positionOfWord w = none := dif_neg (by omega)

theorem positionOfWord_eq_some {p : Pos} (e : w.toNat = p.val) : positionOfWord w = some p :=
  (dif_pos (show w.toNat < 6 from e ▸ p.isLt)).trans (congrArg some (Fin.ext e))

theorem bankOfWord_eq_none (o : 5 < w.toNat) : bankOfWord w = none := dif_neg (by omega)

theorem bankOfWord_eq_some {b : Bank} (e : w.toNat = b.val) : bankOfWord w = some b :=
  (dif_pos (show w.toNat < 6 from e ▸ b.isLt)).trans (congrArg some (Fin.ext e))

theorem compressorOfWord_eq_none (o : 1 < w.toNat) : compressorOfWord w = none := dif_neg (by omega)

theorem compressorOfWord_eq_some {c : Comp} (e : w.toNat = c.val) : compressorOfWord w = some c :=
  (dif_pos (show w.toNat < 2 from e ▸ c.isLt)).trans (congrArg some (Fin.ext e))

/-! ## What the request forms do with an index -/

theorem State.onPosition_arg (o : 5 < w.toNat) (n : Nat) (body : Pos → State → State) :
    s.onPosition h n w body = s.refuse h n .arg := by
  simp [State.onPosition, positionOfWord_eq_none o]

theorem State.onPosition_noTable (e : s.site = none) (i : w.toNat ≤ 5) (n : Nat) (body : Pos → State → State) :
    s.onPosition h n w body = s.refuse h n .noTable := by
  simp [State.onPosition, positionOfWord_eq_some (p := ⟨w.toNat, by omega⟩) rfl, e]

theorem State.onPosition_site {p : Pos} (e : s.site.isSome = true) (i : w.toNat = p.val) (n : Nat)
    (body : Pos → State → State) : s.onPosition h n w body = body p s := by
  simp [State.onPosition, positionOfWord_eq_some i, Option.isSome_iff_ne_none.1 e]

theorem State.onBank_arg (o : 5 < w.toNat) (n : Nat) (body : Bank → State → State) :
    s.onBank h n w body = s.refuse h n .arg := by
  simp [State.onBank, bankOfWord_eq_none o]

theorem State.onBank_noTable (e : s.site = none) (i : w.toNat ≤ 5) (n : Nat) (body : Bank → State → State) :
    s.onBank h n w body = s.refuse h n .noTable := by
  simp [State.onBank, bankOfWord_eq_some (b := ⟨w.toNat, by omega⟩) rfl, e]

theorem State.onBank_site {b : Bank} (e : s.site.isSome = true) (i : w.toNat = b.val) (n : Nat)
    (body : Bank → State → State) : s.onBank h n w body = body b s := by
  simp [State.onBank, bankOfWord_eq_some i, Option.isSome_iff_ne_none.1 e]

theorem State.onCompressor_arg (o : 1 < w.toNat) (n : Nat) (body : Comp → State → State) :
    s.onCompressor h n w body = s.refuse h n .arg := by
  simp [State.onCompressor, compressorOfWord_eq_none o]

theorem State.onCompressor_noTable (e : s.site = none) (i : w.toNat ≤ 1) (n : Nat) (body : Comp → State → State) :
    s.onCompressor h n w body = s.refuse h n .noTable := by
  simp [State.onCompressor, compressorOfWord_eq_some (c := ⟨w.toNat, by omega⟩) rfl, e]

theorem State.onCompressor_site {c : Comp} (e : s.site.isSome = true) (i : w.toNat = c.val) (n : Nat)
    (body : Comp → State → State) : s.onCompressor h n w body = body c s := by
  simp [State.onCompressor, compressorOfWord_eq_some i, Option.isSome_iff_ne_none.1 e]

theorem State.onPoint_arg (o : 191 < w.toNat) (n : Nat) (body : Nat → PointEntry → State → State) :
    s.onPoint h n w body = s.refuse h n .arg := if_pos o

theorem State.onPoint_noTable (e : s.site = none) (i : w.toNat ≤ 191) (n : Nat) (body : Nat → PointEntry → State → State) :
    s.onPoint h n w body = s.refuse h n .noTable := by
  simp [State.onPoint, e, Nat.not_lt.2 i]

theorem State.onPoint_notFound (e : s.site.isSome = true) (i : w.toNat ≤ 191) (k : s.entry w.toNat = none) (n : Nat)
    (body : Nat → PointEntry → State → State) : s.onPoint h n w body = s.refuse h n .notFound := by
  simp [State.onPoint, Option.isSome_iff_ne_none.1 e, Nat.not_lt.2 i, k]

theorem State.onPoint_entry {e : PointEntry} (t : s.site.isSome = true) (i : w.toNat < 192)
    (k : s.entry w.toNat = some e) (n : Nat) (body : Nat → PointEntry → State → State) :
    s.onPoint h n w body = body w.toNat e s := by
  simp [State.onPoint, Option.isSome_iff_ne_none.1 t, show ¬191 < w.toNat by omega, k]

/-! ## Refusals -/

/-- An accepted request whose body refuses, wherever it is refused for an index. -/
theorem State.event_refuse (a : s.Accepts h) {v : Word} {content : List Word} {body : State → State} {n : Nat}
    {res : Result} (e : ∀ t : State, t.site = s.site → body t = t.refuse h n res) :
    (s.event fun s => s.mreqIn h v content body) = .next (s.refuse h n res) :=
  State.event_answer a (e _ rfl)

/-- The positions' and banks' requests that are refused alike, with their codes. -/
theorem positionRequests_refused (a : s.Accepts h) {res : Result}
    (hp : ∀ (t : State) n body, t.site = s.site → t.onPosition h n w body = t.refuse h n res)
    (hb : ∀ (t : State) n body, t.site = s.site → t.onBank h n w body = t.refuse h n res) :
    ∀ c ∈ [(Instr.positionRead h w, 2), (.bankRead h w, 3), (.positionStop h w, 23), (.positionDisable h w, 24),
        (.positionEnable h w, 25), (.positionReset h w, 26), (.bankDisable h w, 30), (.bankEnable h w, 31)],
      exec c.1 s = .next (s.refuse h c.2 res) := by
  have p {v : Word} {content : List Word} (n : Nat) (body : Pos → State → State) :
      (s.event fun s => s.mreqIn h v content fun s => s.onPosition h n w body) = .next (s.refuse h n res) :=
    State.event_refuse a fun t e => hp t n body e
  have b {v : Word} {content : List Word} (n : Nat) (body : Bank → State → State) :
      (s.event fun s => s.mreqIn h v content fun s => s.onBank h n w body) = .next (s.refuse h n res) :=
    State.event_refuse a fun t e => hb t n body e
  simp only [List.forall_mem_cons, List.not_mem_nil, false_implies, implies_true, and_true]
  exact ⟨p 2 _, b 3 _, p 23 _, p 24 _, p 25 _, p 26 _, b 30 _, b 31 _⟩

/-- The compressors' requests that are refused alike, with their codes. -/
theorem compressorRequests_refused (a : s.Accepts h) {res : Result}
    (hc : ∀ (t : State) n body, t.site = s.site → t.onCompressor h n w body = t.refuse h n res) :
    ∀ c ∈ [(Instr.compressorRead h w, 4), (.compressorReset h w, 27), (.compressorDisable h w, 28),
        (.compressorEnable h w, 29)],
      exec c.1 s = .next (s.refuse h c.2 res) := by
  have k {v : Word} {content : List Word} (n : Nat) (body : Comp → State → State) :
      (s.event fun s => s.mreqIn h v content fun s => s.onCompressor h n w body) = .next (s.refuse h n res) :=
    State.event_refuse a fun t e => hc t n body e
  simp only [List.forall_mem_cons, List.not_mem_nil, false_implies, implies_true, and_true]
  exact ⟨k 4 _, k 27 _, k 28 _, k 29 _⟩

/-- The two requests on a point that are refused alike, with their codes. -/
theorem pointRequests_refused (a : s.Accepts h) (v : Word) {res : Result}
    (hp : ∀ (t : State) n body, t.site = s.site → t.onPoint h n w body = t.refuse h n res) :
    exec (.pointRead h w) s = .next (s.refuse h 13 res) ∧ exec (.pointManual h w v) s = .next (s.refuse h 14 res) :=
  ⟨State.event_refuse a fun t e => hp t 13 _ e, State.event_refuse a fun t e => hp t 14 _ e⟩

/-- Settles O13: an index out of range is looked at first, then the ACTIVE SITE slot, then the entry. -/
theorem badIndexIsRefused : Obligations.BadIndexIsRefused := by
  intro h w v s a
  refine ⟨fun o => ?_, fun o => ?_, fun o => ?_, fun e => ⟨fun i => ?_, fun i => ?_, fun i => ?_⟩, fun e i k => ?_⟩
  · exact positionRequests_refused a (fun _ n b _ => State.onPosition_arg o n b) fun _ n b _ => State.onBank_arg o n b
  · exact compressorRequests_refused a fun _ n b _ => State.onCompressor_arg o n b
  · exact pointRequests_refused a v fun _ n b _ => State.onPoint_arg o n b
  · exact positionRequests_refused a (fun _ n b t => State.onPosition_noTable (t.trans e) i n b)
      fun _ n b t => State.onBank_noTable (t.trans e) i n b
  · exact compressorRequests_refused a fun _ n b t => State.onCompressor_noTable (t.trans e) i n b
  · exact pointRequests_refused a v fun _ n b t => State.onPoint_noTable (t.trans e) i n b
  · exact pointRequests_refused a v fun t n b st =>
      State.onPoint_notFound (st ▸ e) i (by rw [State.entry, st]; exact k) n b

end Sys2Proof.Machine
end

section
/-! SUPPORT. What the contents of the reading requests hold: lane scans, timers, cooling held by a compressor (R16, R17,
R31, R101, R109, R137, R151, R166, R193). -/

namespace Sys2Proof.Machine

variable {s : State} {h : Header} {w : Word}

/-! ## Lane scans (R16, R17) -/

theorem Quality.worst_self (a : Quality) : a.worst a = a := by
  cases a <;> rfl

theorem Quality.worst_right (a b : Quality) : (a.worst b).worst b = a.worst b := by
  cases a <;> cases b <;> rfl

theorem Quality.worst_absorbs {a b : Quality} (c : Quality) (e : a.worst b = a) : (a.worst c).worst b = a.worst c := by
  revert e
  cases a <;> cases b <;> cases c <;> decide

theorem Quality.worst_eq_or (a b : Quality) : a.worst b = a ∨ a.worst b = b := by
  cases a <;> cases b <;> decide

/-- A lane scan for the greatest of the values `v` over the positions `l`: what `State.Scans` says of the flowing positions,
said of those already looked at. -/
def ScansOver (v : Pos → Value) (l : List Pos) : Option Scan → Prop
  | none => l = []
  | some x =>
    x.lane ∈ l ∧ (v x.lane).num = x.value.num ∧
    (∀ p ∈ l,
      (v p).num ≤ x.value.num ∧ ((v p).num = x.value.num → x.lane.val ≤ p.val) ∧
      x.value.quality.worst (v p).quality = x.value.quality) ∧
    (∃ p ∈ l, (v p).quality = x.value.quality) ∧ (x.value.clamped = true ↔ ∃ p ∈ l, (v p).clamped = true)

theorem laneScan_concat (greater : Bool) (l : List (Pos × Value)) (p : Pos) (v : Value) :
    laneScan greater (l ++ [(p, v)]) =
      match laneScan greater l with
      | none => some ⟨v, p⟩
      | some a =>
        let wins := if greater then a.value.num < v.num else v.num < a.value.num
        some
          { value := ⟨if wins then v.num else a.value.num, a.value.quality.worst v.quality, a.value.clamped || v.clamped⟩,
            lane := if wins then p else a.lane } := by
  unfold laneScan
  rw [List.foldl_append]
  rfl

/-- A later position joins the scan: it wins with a greater value alone. -/
theorem ScansOver.concat {v : Pos → Value} {l : List Pos} {p : Pos} {a : Scan} (k : ScansOver v l (some a))
    (later : ∀ q ∈ l, q.val < p.val) :
    ScansOver v (l ++ [p]) (some
      { value :=
          ⟨if a.value.num < (v p).num then (v p).num else a.value.num, a.value.quality.worst (v p).quality,
            a.value.clamped || (v p).clamped⟩,
        lane := if a.value.num < (v p).num then p else a.lane }) := by
  obtain ⟨lane, num, all, ⟨q, hq, quality⟩, clamped⟩ := k
  refine ⟨?_, ?_, fun r hr => ?_, ?_, ?_⟩
  · dsimp only
    split
    · simp
    · exact List.mem_append_left _ lane
  · dsimp only
    split
    · rfl
    · exact num
  · rcases List.mem_append.1 hr with hr | hr
    · obtain ⟨le, first, worst⟩ := all r hr
      refine ⟨?_, ?_, Quality.worst_absorbs _ worst⟩
      · dsimp only
        split <;> omega
      · dsimp only
        split
        · intro e; omega
        · exact first
    · obtain rfl := List.mem_singleton.1 hr
      refine ⟨?_, ?_, Quality.worst_right _ _⟩
      · dsimp only
        split <;> omega
      · dsimp only
        split
        · exact fun _ => Nat.le_refl _
        · exact fun _ => Nat.le_of_lt (later _ lane)
  · rcases a.value.quality.worst_eq_or (v p).quality with e | e
    · exact ⟨q, List.mem_append_left _ hq, quality.trans e.symm⟩
    · exact ⟨p, by simp, e.symm⟩
  · simp [clamped, or_and_right, exists_or]

/-- One more position is looked at. -/
theorem laneScan_scansOver_concat {v : Pos → Value} {l : List Pos} {p : Pos} (later : ∀ q ∈ l, q.val < p.val)
    (k : ScansOver v l (laneScan true (l.map fun p => (p, v p)))) :
    ScansOver v (l ++ [p]) (laneScan true ((l ++ [p]).map fun p => (p, v p))) := by
  rw [List.map_append, List.map_cons, List.map_nil, laneScan_concat]
  cases e : laneScan true (l.map fun p => (p, v p)) with
  | none =>
    rw [e] at k
    obtain rfl : l = [] := k
    simp [ScansOver, Quality.worst_self]
  | some a =>
    rw [e] at k
    simpa using k.concat later

/-- The positions `l` have been looked at, and those of `m` come after them. -/
theorem laneScan_scansOver (v : Pos → Value) {l m : List Pos} (sorted : (l ++ m).Pairwise fun p q => p.val < q.val)
    (k : ScansOver v l (laneScan true (l.map fun p => (p, v p)))) :
    ScansOver v (l ++ m) (laneScan true ((l ++ m).map fun p => (p, v p))) := by
  induction m generalizing l with
  | nil => rwa [List.append_nil]
  | cons p m ih =>
    have later : ∀ q ∈ l, q.val < p.val := fun q hq =>
      (List.pairwise_append.1 sorted).2.2 q hq p (List.mem_cons_self ..)
    rw [List.append_cons] at sorted ⊢
    exact ih sorted (laneScan_scansOver_concat later k)

theorem mem_filter_flowing (p : Pos) :
    p ∈ (sixIndices.filter fun p => (s.seq p).state.flowing) ↔ (s.seq p).state.flowing = true := by
  have m : p ∈ sixIndices := by revert p; decide
  simp [m]

/-- STATUS_READ's scans are those of R17 by R16. -/
theorem State.scans_flowingLanes (s : State) (v : Pos → Value) : s.Scans v (laneScan true (s.flowingLanes v)) := by
  have k := laneScan_scansOver v (l := []) (m := sixIndices.filter fun p => (s.seq p).state.flowing)
    (List.Pairwise.filter _ (by decide)) rfl
  change ScansOver v (sixIndices.filter fun p => (s.seq p).state.flowing) (laneScan true (s.flowingLanes v)) at k
  cases e : laneScan true (s.flowingLanes v) with
  | none =>
    rw [e] at k
    intro p
    cases f : (s.seq p).state.flowing with
    | false => rfl
    | true =>
      have m := (mem_filter_flowing (s := s) p).2 f
      rw [show _ = [] from k] at m
      cases m
  | some x =>
    rw [e] at k
    obtain ⟨lane, num, all, ⟨q, hq, quality⟩, clamped⟩ := k
    refine ⟨(mem_filter_flowing _).1 lane, num, fun p hp => all p ((mem_filter_flowing p).2 hp),
      ⟨q, (mem_filter_flowing q).1 hq, quality⟩, ?_⟩
    simpa only [mem_filter_flowing] using clamped

/-! ## Timers, counts and cooling -/

theorem State.left_eq (s : State) (d : Option Count) :
    s.left d = d.elim 0 fun x => if s.reached x then 0 else (x - s.time.count).toNat := by
  cases d <;> rfl

theorem State.positionReport_gross (s : State) (p : Pos) :
    (∀ x, s.saleOf p = some x → (s.positionReport p).gross = if x.state = .opened then some x.gross else none) ∧
      (s.saleOf p = none → (s.positionReport p).gross = none) := by
  constructor
  · intro x e
    by_cases o : x.state = .opened <;> simp [State.positionReport, e, o, Option.filter]
  · intro e
    simp [State.positionReport, e]

theorem State.positionReport_paused {p : Pos} (e : (s.seq p).state = .switch ∨ (s.seq p).state = .hold) :
    (s.positionReport p).causes = some (s.seq p).causes ∧ (s.positionReport p).resume = (s.seq p).resume := by
  rcases e with e | e <;> simp [State.positionReport, e]

theorem State.positionReport_not_paused {p : Pos} (e : ¬((s.seq p).state = .switch ∨ (s.seq p).state = .hold)) :
    (s.positionReport p).causes = none ∧ (s.positionReport p).resume = none := by
  obtain ⟨n, m⟩ := not_or.1 e
  simp [State.positionReport, n, m]

theorem State.compCooling_allocated {c : Comp} {a : Alloc} (e : s.cool.allocOf (.compressor c) = some a) :
    s.compCooling c = .allocation a.critical := by
  simp [State.compCooling, e]

theorem State.compCooling_asked {c : Comp} {n : Nat} {m : Bool} (e : s.cool.allocOf (.compressor c) = none)
    (k : s.cool.queue.find? (fun x => x.holder == .compressor c) = some (.compressor c n m)) :
    s.compCooling c = .request m := by
  simp [State.compCooling, e, k]

/-- A compressor that holds nothing and has no request in the queue. -/
theorem State.compCooling_none {c : Comp} (e : s.cool.allocOf (.compressor c) = none)
    (k : ∀ m, ¬∃ n, s.cool.queue.find? (fun x => x.holder == .compressor c) = some (.compressor c n m)) :
    s.compCooling c = .none := by
  unfold State.compCooling
  rw [e]
  cases f : s.cool.queue.find? (fun x => x.holder == .compressor c) with
  | none => rfl
  | some x =>
    have hx := beq_iff_eq.1 (List.find?_some (p := fun x : CoolRequest => x.holder == .compressor c) f)
    cases x with
    | position => rfl
    | compressor d n m =>
      obtain rfl : d = c := Holder.compressor.inj hx
      exact absurd ⟨n, f⟩ (k m)

theorem State.compReport_runTime (s : State) (c : Comp) :
    let runs := (s.comp c).state = .running ∨ (s.comp c).state = .switching ∨ (s.comp c).state = .unloaded
    (runs → (s.compReport c).runTime = some (s.time.count - (s.comp c).runMark).toNat) ∧
      (¬runs → (s.compReport c).runTime = none) := by
  constructor
  · rintro (e | e | e) <;> simp [State.compReport, e, State.since]
  · intro e
    simp only [not_or] at e
    simp [State.compReport, e]

theorem State.supplyWithin_iff (s : State) (k : StationSite) :
    s.supplyWithin k = true ↔
      ∃ y, s.sensor .chillerSupplyT .station = some y ∧ y.isValid = true ∧ y.value ≤ k.supplyLimit := by
  simp [State.supplyWithin, Option.any_eq_true]

theorem State.record_of_live {i : Nat} {r : LiveRecord} (e : s.live i = some r) : s.record i = .sensor r := by
  unfold State.live at e
  split at e <;> simp_all

theorem State.contract_mapRing (s : State) (f : Ring → Ring) (n : Nat) : (s.mapRing f).contract n = s.contract n := rfl

theorem State.logAt_mapRing (s : State) (f : Ring → Ring) : (s.mapRing f).logAt = s.logAt := rfl

theorem State.slotOfNumber_mapRing (s : State) (f : Ring → Ring) (n : Nat) :
    (s.mapRing f).slotOfNumber n = s.slotOfNumber n := rfl

/-! ## Reads are answered with their reports, and do nothing else -/

theorem exec_statusRead (a : s.Accepts h) :
    exec (.statusRead h) s = .next (s.answer h 1 .ok false (.status s.statusReport)) :=
  State.event_answer a rfl

theorem exec_coolingRead (a : s.Accepts h) :
    exec (.coolingRead h) s = .next (s.answer h 5 .ok false (.cooling s.coolReport)) :=
  State.event_answer a rfl

theorem exec_positionRead (a : s.Accepts h) (t : s.site.isSome = true) {p : Pos} (e : w.toNat = p.val) :
    exec (.positionRead h w) s = .next (s.answer h 2 .ok false (.position (s.positionReport p))) :=
  State.event_answer a ((State.onPosition_site (s := s.mapRing _) t e 2 _).trans rfl)

theorem exec_bankRead (a : s.Accepts h) (t : s.site.isSome = true) {b : Bank} (e : w.toNat = b.val) :
    exec (.bankRead h w) s = .next (s.answer h 3 .ok false (.bank (s.bankReport b))) :=
  State.event_answer a ((State.onBank_site (s := s.mapRing _) t e 3 _).trans rfl)

theorem exec_compressorRead (a : s.Accepts h) (t : s.site.isSome = true) {c : Comp} (e : w.toNat = c.val) :
    exec (.compressorRead h w) s = .next (s.answer h 4 .ok false (.compressor (s.compReport c))) :=
  State.event_answer a ((State.onCompressor_site (s := s.mapRing _) t e 4 _).trans rfl)

theorem exec_pointRead (a : s.Accepts h) (t : s.site.isSome = true) {e : PointEntry} (i : w.toNat < 192)
    (k : s.entry w.toNat = some e) :
    exec (.pointRead h w) s = .next (s.answer h 13 .ok false (s.pointContent w.toNat e)) :=
  State.event_answer a ((State.onPoint_entry (s := s.mapRing _) t i k 13 _).trans rfl)

theorem exec_reactionRead (a : s.Accepts h) {c : Condition} (e : conditionOfCode w.toNat = some c) :
    exec (.reactionRead h w) s = .next (s.answer h 16 .ok false (.reactions (s.reactionCells c))) :=
  State.event_answer a (by rw [e]; rfl)

theorem exec_reactionRead_arg (a : s.Accepts h) (e : conditionOfCode w.toNat = none) :
    exec (.reactionRead h w) s = .next (s.refuse h 16 .arg) :=
  State.event_answer a (by rw [e]; rfl)

theorem exec_contractRead_zero (a : s.Accepts h) : exec (.contractRead h 0) s = .next (s.refuse h 11 .arg) :=
  State.event_answer a rfl

theorem exec_contractRead (a : s.Accepts h) (n : w ≠ 0) {c : Contract} (e : s.contract w.toNat = some c) :
    exec (.contractRead h w) s = .next (s.answer h 11 .ok false (.contract c)) :=
  State.event_answer a (by rw [if_neg n, State.contract_mapRing, e]; rfl)

theorem exec_contractRead_notFound (a : s.Accepts h) (n : w ≠ 0) (e : s.contract w.toNat = none) :
    exec (.contractRead h w) s = .next (s.refuse h 11 .notFound) :=
  State.event_answer a (by rw [if_neg n, State.contract_mapRing, e]; rfl)

theorem exec_logPeek (a : s.Accepts h) {r : SaleRecord} (e : s.sales.closure.head?.bind s.logAt = some r) :
    exec (.logPeek h) s = .next (s.answer h 17 .ok false (.record r)) :=
  State.event_answer a (by rw [State.mapRing_sales, State.logAt_mapRing, e]; rfl)

theorem exec_logPeek_notFound (a : s.Accepts h) (e : s.sales.closure = []) :
    exec (.logPeek h) s = .next (s.refuse h 17 .notFound) :=
  State.event_answer a (by rw [State.mapRing_sales, e]; rfl)

theorem exec_logRead (a : s.Accepts h) {n : BitVec 32} {r : SaleRecord}
    (e : (s.slotOfNumber n.toNat).bind s.logAt = some r) :
    exec (.logRead h n) s = .next (s.answer h 18 .ok false (.record r)) :=
  State.event_answer a (by rw [State.slotOfNumber_mapRing, State.logAt_mapRing, e]; rfl)

theorem exec_logRead_notFound (a : s.Accepts h) {n : BitVec 32} (e : s.slotOfNumber n.toNat = none) :
    exec (.logRead h n) s = .next (s.refuse h 18 .notFound) :=
  State.event_answer a (by rw [State.slotOfNumber_mapRing, e]; rfl)

/-! ## What each report holds -/

theorem State.coolReport_monitor (s : State) (p : Pos) : s.coolReport.monitors.get p = s.monitorReport p := by
  match p with
  | 0 | 1 | 2 | 3 | 4 | 5 => rfl

theorem State.bankReport_routed (s : State) (b : Bank) (p : Pos) : (s.bankReport b).routed.get p = s.routed p b := by
  match p with
  | 0 | 1 | 2 | 3 | 4 | 5 => rfl

theorem State.statusReport_event (s : State) (k : EventKind) :
    s.statusReport.events[k.code - 1]? =
      some (k.scopes.countP fun sc => (s.flag k sc).isSome, s.events.enable.toNat.testBit (k.code - 1)) := by
  cases k <;> rfl

theorem State.reactionCells_present (s : State) (c : Condition) (k : StateClass) :
    ((s.reactionCells c)[k.code]?).map ReactionCell.present = some (s.reactionOf c k) := by
  cases k <;> rfl

/-- Settles O15: each read is answered with its report, and each report holds what is asked for. -/
theorem readsChangeNothing : Obligations.ReadsChangeNothing := by
  intro h w s a left
  have hl : ∀ d, s.left d = left d := s.left_eq
  refine ⟨fun t => ⟨fun p e => ?_, fun b e => ?_, fun c e => ?_, fun e r i k l => ?_, fun e r i k l => ?_⟩, ?_, ?_,
    fun c e => ?_, fun e => exec_reactionRead_arg a e, fun e => ?_, fun n => ⟨fun c e => ?_, fun e => ?_⟩, fun e => ?_,
    fun i l r e k => ?_, fun n => ⟨fun i r e k => ?_, fun e => ?_⟩⟩
  · obtain ⟨g1, g2⟩ := s.positionReport_gross p
    exact ⟨_, exec_positionRead a t e, rfl, rfl, rfl, rfl, rfl, rfl, rfl, rfl, State.positionReport_paused,
      State.positionReport_not_paused, rfl, rfl, rfl, rfl, rfl, rfl, rfl, rfl, hl _, hl _, hl _, hl _, rfl, hl _, g1, g2,
      rfl, rfl, rfl, rfl⟩
  · exact ⟨_, exec_bankRead a t e, rfl, rfl, s.bankReport_routed b⟩
  · obtain ⟨counted, not⟩ := s.compReport_runTime c
    exact ⟨_, exec_compressorRead a t e, rfl, rfl, rfl, rfl, rfl, rfl, hl _, counted, not,
      fun _ => State.compCooling_allocated,
      fun f => ⟨fun _ ⟨_, q⟩ => State.compCooling_asked f q, State.compCooling_none f⟩⟩
  · refine ⟨s.sensorReport e r, ?_, rfl, rfl, rfl, rfl, hl _, rfl, fun p sc pr => ?_, fun n => ?_⟩
    · rw [exec_pointRead a t i k, State.pointContent, State.record_of_live l]
    · simp only [State.sensorReport, sc]
      exact if_pos pr
    · simp only [State.sensorReport]
      split
      · exact if_neg n
      · rfl
  · refine ⟨s.actReport e r, ?_, rfl, rfl, rfl, rfl, rfl, rfl, rfl, rfl, fun f => ?_, fun j f x y => ?_, rfl, hl _, hl (some _)⟩
    · rw [exec_pointRead a t i k, State.pointContent, State.record_of_act l]
    · simp [State.actReport, f]
    · simp [State.actReport, x, y, LiveRecord.toValue]
  · exact ⟨_, exec_statusRead a, rfl, rfl, rfl, rfl, rfl, rfl, rfl, rfl, rfl, rfl, rfl, s.seqs.get_map _,
      s.sched.comps.get_map _, rfl, rfl, rfl, rfl, rfl, rfl, by simp [State.statusReport, KindStore.activeGen, TableStore.kind],
      s.scans_flowingLanes _, s.scans_flowingLanes _, s.statusReport_event⟩
  · refine ⟨_, exec_coolingRead a, rfl, rfl, rfl, rfl, rfl, rfl, by simp [State.coolReport], fun k e => ?_, fun e => ?_,
      fun p => ?_, fun i y e f => ?_, fun e => ?_, rfl⟩
    · exact ⟨s.supplyWithin k, by simp [State.coolReport, e], s.supplyWithin_iff k⟩
    · simp [State.coolReport, e]
    · simp only [s.coolReport_monitor, State.monitorReport, hl]
    · simp [State.coolReport, e, f]
    · simp [State.coolReport, e]
  · exact ⟨_, exec_reactionRead a e, rfl, s.reactionCells_present c⟩
  · subst e; exact exec_contractRead_zero a
  · exact exec_contractRead a n e
  · exact exec_contractRead_notFound a n e
  · exact exec_logPeek_notFound a e
  · exact exec_logPeek a (by rw [e]; exact k)
  · exact exec_logRead a (by rw [e]; exact k)
  · exact exec_logRead_notFound a e

end Sys2Proof.Machine
end

section
/-! SUPPORT. What the change of a sensor point's record and the expiry of a meter's deadline leave in the end (R7, R8, R14,
R169, R171). -/

namespace Sys2Proof.Machine

variable {x : Option Pos} {y : Option Comp} {s t : State}

/-! ## Live records -/

theorem State.inRange_of_live {i : Nat} {r : LiveRecord} (h : s.live i = some r) : i < s.points.records.length := by
  refine Decidable.byContradiction fun n => ?_
  simp [State.live, State.record, List.getD_eq_getElem?_getD, List.getElem?_eq_none (Nat.not_lt.mp n)] at h

/-- A sensor record put in the place of another. -/
theorem State.live_setRecord {i : Nat} {old : LiveRecord} (h : s.live i = some old) (r : LiveRecord) (j : Nat) :
    (s.setRecord i (.sensor r)).live j = if j = i then some r else s.live j := by
  have l := State.inRange_of_live h
  unfold State.live
  rw [State.record_setRecord]
  by_cases c : i = j
  · subst c; simp [l]
  · simp [c, Ne.symm c]

/-- Evaluating a watch changes the watch state alone (R14). -/
theorem PointEntry.evaluate_fst (e : PointEntry) (r : LiveRecord) : ∃ w, (e.evaluate r).1 = { r with watch := w } := by
  unfold PointEntry.evaluate
  split
  · exact ⟨_, rfl⟩
  · exact ⟨r.watch, rfl⟩

/-- A changed record stands, its watch state apart, and all the rest are consequences (R9). -/
theorem State.changeRecord_loose (s : State) (i : Nat) (e : PointEntry) (old r : LiveRecord) (watched : Bool) :
    ∃ w, Loose (s.setRecord i (.sensor { r with watch := w })) (s.changeRecord i e old r watched) := by
  cases watched with
  | false => exact ⟨r.watch, Loose.handOver .refl _ _ _ _ _⟩
  | true =>
    obtain ⟨w, hw⟩ := e.evaluate_fst r
    refine ⟨w, ?_⟩
    rw [← hw]
    exact Loose.handOver .refl _ _ _ _ _

/-! ## The counter at an expiry (R197) -/

/-- An expiry that is taken moves the counter alone. -/
theorem State.arriveAt_eq (s : State) (d : Count) : s.arriveAt d = s.mapTime fun _ => (s.arriveAt d).time := by
  unfold State.arriveAt
  split <;> rfl

theorem State.arriveAt_live (s : State) (d : Count) (i : Nat) : (s.arriveAt d).live i = s.live i := by
  rw [State.arriveAt_eq]; rfl

theorem State.arriveAt_entry (s : State) (d : Count) (i : Nat) : (s.arriveAt d).entry i = s.entry i := by
  rw [State.arriveAt_eq]; rfl

theorem State.arriveAt_tables (s : State) (d : Count) : (s.arriveAt d).tables = s.tables := by
  rw [State.arriveAt_eq]; rfl

theorem State.arriveAt_sales (s : State) (d : Count) : (s.arriveAt d).sales = s.sales := by
  rw [State.arriveAt_eq]; rfl

theorem State.arriveAt_events (s : State) (d : Count) : (s.arriveAt d).events = s.events := by
  rw [State.arriveAt_eq]; rfl

theorem State.arriveAt_reactions (s : State) (d : Count) : (s.arriveAt d).reactions = s.reactions := by
  rw [State.arriveAt_eq]; rfl

/-! ## A freshness deadline expires (R8) -/

/-- The stale record stands, its watch state apart, and all the rest are consequences. -/
theorem State.pointExpired_loose {i : Nat} {e : PointEntry} {old : LiveRecord} (he : s.entry i = some e)
    (ho : s.live i = some old) :
    ∃ w, Loose (s.setRecord i (.sensor { e.staleRecord old with watch := w })) (s.pointExpired i) := by
  unfold State.pointExpired
  rw [he, ho]
  exact s.changeRecord_loose i e old _ true

theorem exec_pointDeadlineExpiry {i : Fin 192} {old : LiveRecord} {d : Count} (ho : s.live i.val = some old)
    (hd : old.deadline = some d) :
    exec (.pointDeadlineExpiry i) s = .next ((s.arriveAt d).pointExpired i.val).settle := by
  have k : s.pointDeadline i.val = some d := by rw [State.pointDeadline, ho]; exact hd
  show State.event s _ = _
  rw [State.event_eq, k]
  rfl

/-! ## A meter's deadline expires (R171) -/

theorem State.isSome_flag_setFlag (s : State) {k : EventKind} {sc : EventScope}
    (l : flagIndex k sc < s.events.flags.length) (d : Detail) : ((s.setFlag k sc d).flag k sc).isSome = true := by
  have put (f : Flag) : ((s.events.flags.set (flagIndex k sc) (some f)).getD (flagIndex k sc) none).isSome = true := by
    rw [getD_set, if_pos ⟨rfl, l⟩]; rfl
  unfold State.setFlag
  split
  · exact put _
  · dsimp only
    split
    · exact (Kept.placeNotice (x := none) (y := none) .refl _).events.set _ (put _)
    · exact put _

theorem flagIndex_condition_lt (p : Pos) : flagIndex .condition (.position p) < 46 := by
  have := p.isLt
  simp only [flagIndex, EventKind.base, EventScope.offset, if_true]
  omega

/-- A raise sets the position's CONDITION event (R110, R194). -/
theorem State.isSome_flag_raise (s : State) (l : s.events.flags.length = 46) (p : Pos) (c : Condition) (d : RaiseDetail)
    (b : Bool) : ((s.raise p c d b).flag .condition (.position p)).isSome = true := by
  unfold State.raise
  refine (Kept.applyReaction (p := p) (y := none) .refl c _).events.set _ ?_
  exact State.isSome_flag_setFlag _ (l ▸ flagIndex_condition_lt p) _

/-- The intake that a missed deadline leaves (R171). -/
def Intake.silent (n : Intake) : Intake := { n with freshness := .stale, deadline := none, healthy := false }

/-- An intake without its interval mark, which consequences may change (`Kept.intake`). -/
def Intake.unmarked (n : Intake) : Intake := { n with interval := .gasOpen }

theorem State.mapSale_intake (s : State) (p : Pos) (f : SaleRecord → SaleRecord) :
    (s.mapSale p f).sales.intake = s.sales.intake := by
  unfold State.mapSale
  split <;> rfl

theorem State.mapIntake_get (s : State) (p q : Pos) (f : Intake → Intake) :
    (s.mapIntake p f).sales.intake.get q = if q = p then f (s.sales.intake.get q) else s.sales.intake.get q :=
  Six.get_modify _ _ _ _

theorem State.mapSale_events (s : State) (p : Pos) (f : SaleRecord → SaleRecord) : (s.mapSale p f).events = s.events := by
  unfold State.mapSale
  split <;> rfl

/-- Where the meter was HEALTHY its passage to FAULTY is raised, behind the silent intake. -/
theorem State.meterExpired_healthy {p : Pos} (hy : (s.sales.intake.get p).healthy = true) :
    ∃ u : State, (∀ q, u.sales.intake.get q = if q = p then (s.sales.intake.get q).silent else s.sales.intake.get q) ∧
      u.events = s.events ∧ s.meterExpired p = u.raise p .meterFault .meterStale false := by
  unfold State.meterExpired
  extract_lets s1
  have late : ∀ q, (s1.markSuspect p).sales.intake.get q =
      if q = p then { s.sales.intake.get q with freshness := .stale, deadline := none } else s.sales.intake.get q := by
    intro q
    rw [State.markSuspect, State.mapSale_intake, State.mapIntake_get]
  refine ⟨(s1.markSuspect p).mapIntake p fun n => { n with healthy := false }, fun q => ?_, ?_, ?_⟩
  · rw [State.mapIntake_get, late]
    split <;> rfl
  · exact State.mapSale_events _ _ _
  · rw [if_pos (by rw [State.mapIntake_get, if_pos rfl]; exact hy), State.meterFaulty,
      if_pos (by rw [late, if_pos rfl]; exact hy)]

/-- Where the meter was FAULTY the intake alone changes. -/
theorem State.meterExpired_faulty {p : Pos} (hy : (s.sales.intake.get p).healthy = false) (q : Pos) :
    (s.meterExpired p).sales.intake.get q = if q = p then (s.sales.intake.get q).silent else s.sales.intake.get q := by
  unfold State.meterExpired
  extract_lets s1
  have late : s1.sales.intake.get q =
      if q = p then { s.sales.intake.get q with freshness := .stale, deadline := none } else s.sales.intake.get q :=
    State.mapIntake_get _ _ _ _
  rw [if_neg (by rw [State.mapIntake_get, if_pos rfl]; simp [hy]), late]
  split
  · subst_vars; simp [Intake.silent, hy]
  · rfl

theorem Kept.unmarked_eq (h : Kept x y s t) (p : Pos) :
    (t.sales.intake.get p).unmarked = (s.sales.intake.get p).unmarked := h.intake p

/-- What a missed deadline has made of every intake, interval marks apart. -/
theorem State.meterExpired_intake (s : State) (p q : Pos) :
    ((s.meterExpired p).sales.intake.get q).unmarked =
      (if q = p then (s.sales.intake.get q).silent else s.sales.intake.get q).unmarked := by
  cases hy : (s.sales.intake.get p).healthy with
  | true =>
    obtain ⟨u, intake, -, e⟩ := State.meterExpired_healthy hy
    rw [e, (Kept.raise (p := p) (y := none) .refl _ _ _).unmarked_eq, intake]
  | false => rw [State.meterExpired_faulty hy]

/-- A HEALTHY meter that falls silent is reported (R171). -/
theorem State.isSome_flag_meterExpired {p : Pos} (hy : (s.sales.intake.get p).healthy = true)
    (l : s.events.flags.length = 46) : ((s.meterExpired p).flag .condition (.position p)).isSome = true := by
  obtain ⟨u, -, events, e⟩ := State.meterExpired_healthy hy
  rw [e]
  exact State.isSome_flag_raise u (events ▸ l) p _ _ _

theorem exec_meterDeadlineExpiry {p : Fin 6} {d : Count} (hd : (s.sales.intake.get p).deadline = some d) :
    exec (.meterDeadlineExpiry p) s = .next ((s.arriveAt d).meterExpired p).settle := by
  show State.event s _ = _
  rw [State.event_eq, hd]
  rfl

/-- Settles O38: the stale record, or the silent intake, is put first; the hand-over, the raise and all that follows them keep
it, as they keep the tables, the closed sales, the reactions and the time. -/
theorem silenceMakesStale : Obligations.SilenceMakesStale := by
  intro d s _
  refine ⟨fun i e old he ho hd => ?_, fun p hd => ?_⟩
  · have he' : (s.arriveAt d).entry i.val = some e := (s.arriveAt_entry d _).trans he
    have ho' : (s.arriveAt d).live i.val = some old := (s.arriveAt_live d _).trans ho
    obtain ⟨w, k⟩ := State.pointExpired_loose he' ho'
    have k := k.settle
    have live := fun j => (k.live_eq j).trans (State.live_setRecord ho' _ j)
    refine ⟨_, _, exec_pointDeadlineExpiry ho hd, (live i.val).trans (if_pos rfl), rfl, rfl, rfl, rfl, rfl, fun j n => ?_,
      s.arriveAt_tables d ▸ k.tables, s.arriveAt_sales d ▸ k.sales, k.reactions.trans (s.arriveAt_reactions d), k.time⟩
    exact ((live j).trans (if_neg n)).trans (s.arriveAt_live d j)
  · have k : Kept none none ((s.arriveAt d).meterExpired p) ((s.arriveAt d).meterExpired p).settle := .settle .refl
    have loose : Loose (s.arriveAt d) ((s.arriveAt d).meterExpired p).settle := (Loose.meterExpired .refl p).kept k
    have intake := fun q => (k.unmarked_eq q).trans ((s.arriveAt d).meterExpired_intake p q)
    simp only [s.arriveAt_sales] at intake
    have own := (intake p).trans (congrArg Intake.unmarked (if_pos rfl))
    refine ⟨_, exec_meterDeadlineExpiry hd, congrArg Intake.freshness own, congrArg Intake.deadline own,
      congrArg Intake.healthy own, (congrArg Intake.baseline own :),
      fun q n => (intake q).trans (congrArg Intake.unmarked (if_neg n)), fun hy l => ?_,
      s.arriveAt_tables d ▸ loose.tables, s.arriveAt_sales d ▸ loose.sales, loose.reactions.trans (s.arriveAt_reactions d),
      loose.time⟩
    exact k.events.set _ (State.isSome_flag_meterExpired ((s.arriveAt_sales d).symm ▸ hy) (s.arriveAt_events d ▸ l))

end Sys2Proof.Machine
end

section
/-! SUPPORT. A station at which a bank joins the replenishment queue by an old pressure, is taken at once by an UNLOADED
compressor, and only then stands below its critical threshold: the case that the statement about SAMPLE frames leaves out
(R126, R139 to R141, R146). -/

namespace Sys2Proof.Machine

variable {s : State}

/-! ## A SAMPLE frame that is consumed -/

theorem exec_sample_consumed {h : Header} {l : List Reading} (c : s.Consumes h) :
    exec (.sample h l) s = .next (s.takeSample h.src l).settle := by
  show State.event s _ = _
  rw [State.event_eq, State.copyIn_consumes (f := sampleFrame h l) c]

/-! ## What the hand-overs of an event leave -/

theorem State.copy_settle (s : State) (b : Bank) : s.settle.copy b = s.copy b :=
  congrArg (fun c => c.get b) (Kept.settle (x := none) (y := none) .refl).copies

/-- A flag that is clear when the hand-overs are taken was clear before. -/
theorem State.flag_eq_none_of_settle {k : EventKind} {sc : EventScope} (e : s.settle.flag k sc = none) :
    s.flag k sc = none := by
  cases f : s.flag k sc with
  | none => rfl
  | some x =>
    have set := (Kept.settle (s := s) (x := none) (y := none) .refl).events.set (flagIndex k sc) (congrArg Option.isSome f)
    rw [show s.settle.events.flags.getD (flagIndex k sc) none = none from e] at set
    cases set

/-! ## The station -/

/-- A BANK_P point of bank 0 on node 20, with a deadline of 1000 ms and no watch. -/
def bankPointWords (channel : Word) : List Word := [20, channel, 5, 768, 1000] ++ List.replicate 10 0

/-- Two BANK_P points of bank 0, whose ceiling, restart and critical thresholds are 300, 200 and 50. -/
def twoGaugesSite : Slot :=
  ⟨.active,
    [some (bankPointWords 0 ++ bankPointWords 1)] ++ List.replicate 47 none ++ [some [0, 300, 200, 50, 1, 0]] ++
      List.replicate 3 none,
    some 1, 0, none⟩

/-- Bank 0 UNKNOWN with neither gauge sampled, compressor 0 UNLOADED and the ring idle. -/
def unloadedStation : State :=
  { State.reset with
    ring := { State.reset.ring with sending := none }
    tables := { State.reset.tables with site := ⟨twoGaugesSite, Slot.empty 52, 1⟩ }
    points :=
      { State.reset.points with
        records := List.replicate 2 (.sensor ⟨0, .invalid, false, .never, none, none⟩) ++ List.replicate 190 .empty }
    sched :=
      { State.reset.sched with
        comps := ⟨{ CompRecord.start with state := .unloaded, timer := some 60000 }, CompRecord.start⟩ } }

/-- A reading of the second gauge. -/
def secondGauge (pressure : Word) : Reading := ⟨1, .ok, pressure⟩

/-- The header of the gauges' frames. -/
def gaugeHeader : Header := ⟨1, 20, 0⟩

/-- The record of the second gauge with a valid pressure. -/
def gaugeRecord (pressure : Int) : LiveRecord := ⟨pressure, .good, false, .fresh, some 1000, none⟩

/-- The station with bank 0 UNKNOWN, by its first gauge, while the scheduler's copy holds the 100 of its second. -/
def staleCopyStation : State :=
  { unloadedStation with
    points :=
      { unloadedStation.points with
        records := unloadedStation.points.records.set 1 (.sensor (gaugeRecord 100)) }
    banks := { unloadedStation.banks with l0 := { BankLive.start with pressure := ⟨100, .good, false⟩ } }
    sched :=
      { unloadedStation.sched with
        copies := { unloadedStation.sched.copies with l0 := ⟨⟨100, .good, false⟩, .unknown⟩ } } }

/-- The state an outcome goes on in. -/
def nextOf : Host.Outcome State Fault Refusal → Option State
  | .next t => some t
  | _ => none

/-- A run reaches it from `unloadedStation`: a reading of the second gauge between BANK_DISABLE and BANK_ENABLE, which asks
the first (R136). -/
theorem staleCopyStation_reached :
    nextOf (core.run 5 (unloadedStation.setPending
      [.bankDisable ⟨1, 0, 0⟩ 0, .transmitComplete, .sample gaugeHeader [secondGauge 100], .bankEnable ⟨1, 0, 0⟩ 0,
        .transmitComplete])) = some staleCopyStation := by
  decide +kernel

/-! ## A critical reading at this station -/

/-- The second gauge reads 40, below the critical threshold. -/
def afterCritical : State := (staleCopyStation.takeSample gaugeHeader.src [secondGauge 40]).settle

theorem exec_criticalSample : exec (.sample gaugeHeader [secondGauge 40]) staleCopyStation = .next afterCritical :=
  exec_sample_consumed ⟨⟨rfl, by decide, by decide⟩, by decide⟩

/-- The entry of the second gauge. -/
def gaugeEntry : PointEntry where
  node := 20
  channel := 1
  fn := .bankP
  scope := .bank 0
  deadline := 1000
  stale := 0
  watch := none
  bank := 0
  prop := false
  safe := 0
  refresh := 0
  feedback := none
  discTime := 0

theorem staleCopyStation_gauge :
    staleCopyStation.pointAt gaugeHeader.src.toNat (secondGauge 40).channel = some 1 ∧
      staleCopyStation.entry 1 = some gaugeEntry ∧ staleCopyStation.live 1 = some (gaugeRecord 100) ∧
      afterCritical.live 1 = some (gaugeRecord 40) := by
  decide +kernel

/-- Bank 0 joins by the 100 of the scheduler's copy, not critical, as its state passes to AVAILABLE; compressor 0 takes it; and
the 40 that is handed over next finds no entry whose mark could pass to set. -/
theorem afterCritical_bank :
    (afterCritical.copy 0).state = .available ∧ (afterCritical.comp 0).target = some 0 ∧
      afterCritical.flag .bankCritical (.bank 0) = none := by
  decide +kernel

/-- Refutes O36: at `staleCopyStation`, which `staleCopyStation_reached` shows to come about, a valid reading below the
critical threshold makes bank 0 AVAILABLE and a compressor's target, and BANK_CRITICAL is not set.  The statement asks for
the flag also where an UNLOADED compressor takes the bank at once. -/
theorem not_sampleDecidesTheRecord : ¬Obligations.SampleDecidesTheRecord := by
  intro claim
  obtain ⟨t, run, -, -, single, -⟩ := claim gaugeHeader [secondGauge 40] staleCopyStation staleCopyStation
    (.consumed ⟨⟨rfl, by decide, by decide⟩, by decide⟩)
  obtain rfl : afterCritical = t := by
    rw [exec_criticalSample] at run
    exact Host.Outcome.next.inj run
  obtain ⟨point, entry, before, after⟩ := staleCopyStation_gauge
  obtain ⟨available, -, clear⟩ := afterCritical_bank
  obtain ⟨-, -, -, bank, -⟩ := single (secondGauge 40) 1 gaugeEntry _ _ rfl point entry before after
  obtain ⟨-, -, -, u, settled, untargeted⟩ := bank 0 rfl rfl
  rw [settled] at available clear
  rw [State.copy_settle] at available
  obtain ⟨joins, -, -⟩ := untargeted (by decide +kernel)
  obtain ⟨-, -, critical⟩ := joins rfl (by decide +kernel) (by decide +kernel) available (by decide +kernel)
  have raised := critical (by decide +kernel) (by decide +kernel)
  rw [State.flag_eq_none_of_settle clear] at raised
  cases raised

end Sys2Proof.Machine
end
